-- ==== Sys2Proof/Word.lean ====
section
/-! DEFINITION. The word types of the SPI Controller Core: 32-bit registers, offsets and data (R8, R9), 8-bit frames
(R8 FRAME_WIDTH), the 33-bit transaction key (R46). All values are unsigned (R9, R56). -/

namespace Sys2Proof

/-- A register, a byte offset of the window, a write datum or a read result: 32 bits, bit 0 least significant (R8, R9). -/
abbrev Word := BitVec 32

/-- One frame of the Serial Link: 8 bits (R8 FRAME_WIDTH, R83). Also the unit of a transaction frame's bytes. -/
abbrev Byte := BitVec 8

/-- The transaction key `K`: bit 32 the direction, bits 31:0 the byte offset (R46). -/
abbrev Key := BitVec 33

/-- The four chip-select levels or line-wise fields packed as a nibble, bit `i` for line `i` (R90). -/
abbrev Nibble := BitVec 4

end Sys2Proof
end

