-- ==== Sys2Proof/Machine/Operands.lean ====
section
/-! DEFINITION. Operand assembly (R48, R49, R50): truncation and zero-extension (R9), the write-1-to-clear mask, and the
masks of R47 that operands use. -/

namespace Sys2Proof.Machine

/-- `trunc_32(v)`: the low 32 bits of the number on the host's data bus (R9, R35, R48). -/
def trunc32 (data : Nat) : Word := BitVec.ofNat 32 data

/-- `trunc_8(v)`: the low 8 bits, `v[7:0]` (R9, R48). -/
def trunc8 (v : Word) : Byte := v.extractLsb' 0 8

/-- `zext_32(v)` of a byte (R9, R48, R50). -/
def zext32 (b : Byte) : Word := b.setWidth 32

/-- The read result on a host bus of any width: the 32-bit value zero-extended (R35), as a number. -/
def busResult (rdata : Word) : Nat := rdata.toNat

/-- `SR_ERRMASK` (R47): OVERRUN and UNDERRUN, the two write-1-to-clear bits. -/
def srErrMask : Word := 0x0000000C#32

/-- The clear mask of a `WR_SR` datum: only bits 3 and 2 are used (R48, R72). -/
def srClearMask (wdata : Word) : Word := wdata &&& srErrMask

/-- What a read at an undefined offset returns (R49, R65). -/
def undefinedReadValue : Word := 0x00000000#32

end Sys2Proof.Machine
end

