-- ==== Sys2Proof/Machine/Ports.lean ====
section
/-! DEFINITION. What crosses the block's ports (R7): the host's requests, and the events the block sends out
(R37: Serial Link exchanges, the level of `irq`, the levels of the lines, the optional diagnostic). -/

namespace Sys2Proof.Machine

/-- The width of a host access (R35). 32 bits is the only width with a meaning; `other code` is any other one, and the
code only tells such widths apart. -/
inductive AccessWidth where
  | word32
  | other (code : Nat)
  deriving DecidableEq, Repr

/-- One request of the host at the block's Host and Reset ports (R7, R45). The datum of a write is the number on the
host's data bus, which may be wider than 32 bits (R35): the block takes its low 32 bits. -/
inductive Request where
  | read (width : AccessWidth) (offset : Word)
  | write (width : AccessWidth) (offset : Word) (data : Nat)
  | reset
  deriving DecidableEq, Repr

/-- Why a request, or the bytes that should spell one, has no instruction. -/
inductive Reject where
  /-- An access whose width is not 32 bits: R35 gives it no meaning and says that a model refuses it. -/
  | accessWidth (width : AccessWidth)
  /-- Fewer bytes than one transaction frame; only the byte-level decoder meets it. -/
  | truncatedFrame
  deriving DecidableEq, Repr

/-- The kind of a diagnostic report (R9 primitive `Diag`, R103). -/
inductive DiagKind where
  | badRead
  | badWrite
  deriving DecidableEq, Repr

/-- One event the block sends out of a port (R37; R91 and R107 for a model that records output events). Levels are
`true` for 1 and `false` for 0. -/
inductive Event where
  /-- One Serial Link exchange: the outbound byte and the byte the link answered (R83). -/
  | exchange (tx rx : Byte)
  /-- The Interrupt Line driven with a level (R107). -/
  | irqDrive (level : Bool)
  /-- Chip-Select Line `line` driven with a level (R91). -/
  | lineDrive (line : Fin 4) (level : Bool)
  /-- The optional report of an undefined-offset access (R103); a read has no datum. -/
  | diag (kind : DiagKind) (offset : Word) (wdata : Option Word)
  deriving DecidableEq, Repr

/-- An event that some collaborator of the block observes: every event but a diagnostic report (R103). -/
def Event.observed : Event → Bool
  | .exchange _ _ => true
  | .irqDrive _ => true
  | .lineDrive _ _ => true
  | .diag _ _ _ => false

/-- What the collaborators have observed of the block: its events without the diagnostic reports (R83, R103). -/
def observedHistory (trace : List Event) : List Event := trace.filter Event.observed

end Sys2Proof.Machine
end

