-- ==== Sys2Proof/Machine/RegMap.lean ====
section
/-! DEFINITION. The register map of the window (R31): which offset is which register, and which offsets are undefined (R32). -/

namespace Sys2Proof.Machine

/-- The five registers (R12). -/
inductive Reg where
  | cr1
  | cr2
  | sr
  | dr
  | cs
  deriving DecidableEq, Repr

/-- The byte offset of each register (R31). -/
def regOffset : Reg → Word
  | .cr1 => 0x00#32
  | .cr2 => 0x04#32
  | .sr  => 0x08#32
  | .dr  => 0x0C#32
  | .cs  => 0x10#32

/-- The five registers in the order of their offsets. -/
def allRegs : List Reg := [.cr1, .cr2, .sr, .dr, .cs]

/-- The register at exactly this offset, if there is one: every bit of the offset takes part (R32, R52). -/
def regAt (offset : Word) : Option Reg :=
  allRegs.find? fun r => regOffset r == offset

/-- An undefined offset is every offset that is not exactly one of the five (R32). -/
def undefinedOffset (offset : Word) : Bool :=
  (regAt offset).isNone

end Sys2Proof.Machine
end

