-- ==== Sys2Proof/Syntax.lean ====
section
/-! DEFINITION. The operations of the block (R45, R51), one constructor per row of spec/opcode_table.json. An "instruction"
of this spec is one host operation on the register window, or the reset request (D1). -/

namespace Sys2Proof

/-- The thirteen operations of R51. -/
inductive Instr where
  /-- `RD_CR1` (R60). -/
  | rdCr1
  /-- `RD_CR2` (R61). -/
  | rdCr2
  /-- `RD_SR` (R62). -/
  | rdSr
  /-- `RD_DR` (R63). -/
  | rdDr
  /-- `RD_CS` (R64). -/
  | rdCs
  /-- `RD_UNDEF` (R65): a read at an undefined offset. -/
  | rdUndef (offset : Word)
  /-- `WR_CR1` (R70). -/
  | wrCr1 (wdata : Word)
  /-- `WR_CR2` (R71). -/
  | wrCr2 (wdata : Word)
  /-- `WR_SR` (R72). -/
  | wrSr (wdata : Word)
  /-- `WR_DR` (R73). -/
  | wrDr (wdata : Word)
  /-- `WR_CS` (R74). -/
  | wrCs (wdata : Word)
  /-- `WR_UNDEF` (R75): a write at an undefined offset. -/
  | wrUndef (offset wdata : Word)
  /-- `RESET` (R120): the reset request, no bus transaction. -/
  | reset
  deriving DecidableEq, Repr

end Sys2Proof
end

