-- ==== Sys2Proof/WellFormed.lean ====
section
/-! DEFINITION. Which terms of `Instr` are operations of the block. The only constraint is R32's: `RD_UNDEF` and `WR_UNDEF`
carry an undefined offset; every 32-bit datum at every offset is legal (R53). -/

namespace Sys2Proof

/-- Why a term is no operation of the block. -/
inductive IllFormed where
  /-- `RD_UNDEF` with the offset of a register. -/
  | readOffsetIsDefined (offset : Word)
  /-- `WR_UNDEF` with the offset of a register. -/
  | writeOffsetIsDefined (offset : Word)
  deriving DecidableEq, Repr

/-- The check, which names what is wrong. -/
def Instr.illFormed : Instr → Option IllFormed
  | .rdCr1 => none
  | .rdCr2 => none
  | .rdSr => none
  | .rdDr => none
  | .rdCs => none
  | .rdUndef offset => if Machine.undefinedOffset offset then none else some (.readOffsetIsDefined offset)
  | .wrCr1 _ => none
  | .wrCr2 _ => none
  | .wrSr _ => none
  | .wrDr _ => none
  | .wrCs _ => none
  | .wrUndef offset _ => if Machine.undefinedOffset offset then none else some (.writeOffsetIsDefined offset)
  | .reset => none

/-- A well-formed operation: the check finds nothing wrong. -/
def Instr.wellFormed (i : Instr) : Bool := i.illFormed.isNone

end Sys2Proof
end

