-- ==== Sys2Proof/Decode.lean ====
section
/-! DEFINITION. From requests, and from bytes, to instructions (R46, R51, R52), total, rejecting by name; then the encoder.

A TRANSACTION FRAME is this model's notation for one request as 72 bits, nine bytes, least significant first (log
entry 2): bits 32:0 the key `K` of R46; bits 39:33 the form, 0 for a 32-bit bus transaction (the only form the opcode table
has), 1 for the reset request, which has no key, any other code for an access of another width; bits 71:40 the write datum, which travels
beside the key (R46) and which a read ignores. -/

namespace Sys2Proof

open Sys2Proof.Machine

/-! ## The operation map of R51 -/

/-- The direction bit of the key: false for a read, true for a write (R46). -/
def keyIsWrite (k : Key) : Bool := k.getLsbD 32

/-- The offset field of the key (R46). -/
def keyOffset (k : Key) : Word := k.extractLsb' 0 32

/-- The key of a direction and an offset (R46). -/
def keyOf (isWrite : Bool) (offset : Word) : Key := BitVec.ofBool isWrite ++ offset

/-- One row of the operation map with a full-key mask (R51): an access selects it when `(K & mask) == match`. -/
structure OpRow where
  mnemonic : String
  matchKey : Key
  mask     : Key
  instr    : Word → Instr

/-- The ten full-key rows of R51, in its order. -/
def opRows : List OpRow :=
  [ ⟨"RD_CR1", 0x000000000#33, 0x1FFFFFFFF#33, fun _ => .rdCr1⟩,
    ⟨"RD_CR2", 0x000000004#33, 0x1FFFFFFFF#33, fun _ => .rdCr2⟩,
    ⟨"RD_SR",  0x000000008#33, 0x1FFFFFFFF#33, fun _ => .rdSr⟩,
    ⟨"RD_DR",  0x00000000C#33, 0x1FFFFFFFF#33, fun _ => .rdDr⟩,
    ⟨"RD_CS",  0x000000010#33, 0x1FFFFFFFF#33, fun _ => .rdCs⟩,
    ⟨"WR_CR1", 0x100000000#33, 0x1FFFFFFFF#33, fun d => .wrCr1 d⟩,
    ⟨"WR_CR2", 0x100000004#33, 0x1FFFFFFFF#33, fun d => .wrCr2 d⟩,
    ⟨"WR_SR",  0x100000008#33, 0x1FFFFFFFF#33, fun d => .wrSr d⟩,
    ⟨"WR_DR",  0x10000000C#33, 0x1FFFFFFFF#33, fun d => .wrDr d⟩,
    ⟨"WR_CS",  0x100000010#33, 0x1FFFFFFFF#33, fun d => .wrCs d⟩ ]

/-- Whether a key selects a row (R51). -/
def OpRow.hits (r : OpRow) (k : Key) : Bool := (k &&& r.mask) == r.matchKey

/-- The operation a bus transaction selects (R52): the full-key row that the key matches, else the default row of its
direction, whose mask keeps only the direction bit (R51). Total. -/
def decodeKey (k : Key) (wdata : Word) : Instr :=
  match opRows.find? fun r => r.hits k with
  | some r => r.instr wdata
  | none => if keyIsWrite k then .wrUndef (keyOffset k) wdata else .rdUndef (keyOffset k)

/-- The instruction of a request. An access of another width has none (R35: "a model refuses it"); of the number on the
host's data bus the low 32 bits are taken (R35, R48). -/
def decodeRequest : Request → Except Reject Instr
  | .read .word32 offset => .ok (decodeKey (keyOf false offset) 0#32)
  | .write .word32 offset data => .ok (decodeKey (keyOf true offset) (trunc32 data))
  | .read (.other code) _ => .error (.accessWidth (.other code))
  | .write (.other code) _ _ => .error (.accessWidth (.other code))
  | .reset => .ok .reset

/-! ## Frames and bytes -/

/-- The fields of a transaction frame. -/
def frameKey (f : BitVec 72) : Key := f.extractLsb' 0 33
def frameForm (f : BitVec 72) : BitVec 7 := f.extractLsb' 33 7
def frameData (f : BitVec 72) : Word := f.extractLsb' 40 32

/-- The form code of the reset request. -/
def resetForm : BitVec 7 := 1#7

/-- The access width a form code stands for, the reset request's code apart. -/
def widthOfForm (form : BitVec 7) : AccessWidth :=
  if form = 0#7 then .word32 else .other form.toNat

/-- The form code of an access width. -/
def formOfWidth : AccessWidth → BitVec 7
  | .word32 => 0#7
  | .other code => BitVec.ofNat 7 code

/-- The request a frame spells. Total: every frame spells one. -/
def requestOfFrame (f : BitVec 72) : Request :=
  if frameForm f = resetForm then .reset
  else if keyIsWrite (frameKey f) then
    .write (widthOfForm (frameForm f)) (keyOffset (frameKey f)) (frameData f).toNat
  else .read (widthOfForm (frameForm f)) (keyOffset (frameKey f))

/-- A frame from its fields. -/
def mkFrame (form : BitVec 7) (k : Key) (wdata : Word) : BitVec 72 := wdata ++ form ++ k

/-- The nine bytes of a frame, least significant first. -/
def bytesOfFrame (f : BitVec 72) : List Byte :=
  [ f.extractLsb' 0 8, f.extractLsb' 8 8, f.extractLsb' 16 8, f.extractLsb' 24 8, f.extractLsb' 32 8,
    f.extractLsb' 40 8, f.extractLsb' 48 8, f.extractLsb' 56 8, f.extractLsb' 64 8 ]

/-- The frame of nine bytes, least significant first. -/
def frameOfBytes (b0 b1 b2 b3 b4 b5 b6 b7 b8 : Byte) : BitVec 72 :=
  b8 ++ b7 ++ b6 ++ b5 ++ b4 ++ b3 ++ b2 ++ b1 ++ b0

/-- Decode the frame at the head of a list of bytes: the instruction and the bytes after it, or why there is none. -/
def decode : List Byte → Except Reject (Instr × List Byte)
  | b0 :: b1 :: b2 :: b3 :: b4 :: b5 :: b6 :: b7 :: b8 :: rest =>
    match decodeRequest (requestOfFrame (frameOfBytes b0 b1 b2 b3 b4 b5 b6 b7 b8)) with
    | .ok i => .ok (i, rest)
    | .error e => .error e
  | _ => .error .truncatedFrame

/-! ## The encoder, from the same rows of R51 -/

/-- The direction, offset and datum of each operation (R51); none for the reset request, which has no key (R46). -/
def transactionOf : Instr → Option (Bool × Word × Word)
  | .rdCr1 => some (false, regOffset .cr1, 0#32)
  | .rdCr2 => some (false, regOffset .cr2, 0#32)
  | .rdSr => some (false, regOffset .sr, 0#32)
  | .rdDr => some (false, regOffset .dr, 0#32)
  | .rdCs => some (false, regOffset .cs, 0#32)
  | .rdUndef offset => some (false, offset, 0#32)
  | .wrCr1 wdata => some (true, regOffset .cr1, wdata)
  | .wrCr2 wdata => some (true, regOffset .cr2, wdata)
  | .wrSr wdata => some (true, regOffset .sr, wdata)
  | .wrDr wdata => some (true, regOffset .dr, wdata)
  | .wrCs wdata => some (true, regOffset .cs, wdata)
  | .wrUndef offset wdata => some (true, offset, wdata)
  | .reset => none

/-- The request by which a host asks for an operation. -/
def requestOf (i : Instr) : Request :=
  match transactionOf i with
  | some (false, offset, _) => .read .word32 offset
  | some (true, offset, wdata) => .write .word32 offset wdata.toNat
  | none => .reset

/-- The frame of an operation. -/
def frameOf (i : Instr) : BitVec 72 :=
  match transactionOf i with
  | some (isWrite, offset, wdata) => mkFrame (formOfWidth .word32) (keyOf isWrite offset) wdata
  | none => mkFrame resetForm 0#33 0#32

/-- The nine bytes of an operation. -/
def encode (i : Instr) : List Byte := bytesOfFrame (frameOf i)

/-! ## The host's reading of table words -/

/-- The request that the low `nbits` bits of `w` spell, every bit above them zero. A row to which the table gives no bits
at all is the reset request, the one operation with no key (R46, log entry 3). -/
def requestOfTableWord (nbits w : Nat) : Request :=
  if nbits = 0 then .reset else requestOfFrame (BitVec.ofNat 72 (w % 2 ^ nbits))

/-- The instruction the decoder reads from the word of an opcode-table row: laid out as the bytes of a frame and given to
`decode`. -/
def decodeTableWord (nbits w : Nat) : Option Instr :=
  if nbits = 0 then some .reset
  else
    match decode (bytesOfFrame (BitVec.ofNat 72 (w % 2 ^ nbits))) with
    | .ok (i, _) => some i
    | .error _ => none

end Sys2Proof
end

