-- ==== Sys2Proof/Machine/Flags.lean ====
section
/-! DEFINITION. The flags of `sr` and the enables of `cr2` and `cs` as fields of their words (R47), the interrupt-enable
combinator `IrqLevel` (R105) and the chip-select decoder `CsLevel` (R90): pure functions of registers. -/

namespace Sys2Proof.Machine

/-! ## Fields (R13, R14, R15, R23, R47) -/

/-- `cr1.SPE`, bit 6 (R13): stored, without effect. -/
def cr1Spe (cr1 : Word) : Bool := cr1.getLsbD 6
/-- `cr1.MSTR`, bit 2 (R13): stored, without effect. -/
def cr1Mstr (cr1 : Word) : Bool := cr1.getLsbD 2
/-- `cr2.TXEIE`, bit 7 (R14). -/
def cr2Txeie (cr2 : Word) : Bool := cr2.getLsbD 7
/-- `cr2.RXNEIE`, bit 6 (R14). -/
def cr2Rxneie (cr2 : Word) : Bool := cr2.getLsbD 6
/-- `cr2.ERRIE`, bit 5 (R14). -/
def cr2Errie (cr2 : Word) : Bool := cr2.getLsbD 5
/-- `sr.RXNE`, bit 0 (R16). -/
def srRxne (sr : Word) : Bool := sr.getLsbD 0
/-- `sr.TXE`, bit 1 (R17). -/
def srTxe (sr : Word) : Bool := sr.getLsbD 1
/-- `sr.UNDERRUN`, bit 2 (R18). -/
def srUnderrun (sr : Word) : Bool := sr.getLsbD 2
/-- `sr.OVERRUN`, bit 3 (R19). -/
def srOverrun (sr : Word) : Bool := sr.getLsbD 3
/-- `sr.BUSY`, bit 7 (R20): no operation sets it. -/
def srBusy (sr : Word) : Bool := sr.getLsbD 7
/-- `cs.CSEN[i]`, bit `i` (R23). -/
def csEnable (cs : Word) (line : Fin 4) : Bool := cs.getLsbD line.val
/-- `cs.CSPOL[i]`, bit `i + 4` (R23). -/
def csPolarity (cs : Word) (line : Fin 4) : Bool := cs.getLsbD (line.val + 4)

/-- Masks of the four flags (R47). -/
def srRxneMask : Word := 0x00000001#32
def srTxeMask : Word := 0x00000002#32
def srUnderrunMask : Word := 0x00000004#32
def srOverrunMask : Word := 0x00000008#32

/-- Set the masked bits of a register, the others unchanged (R9 `reg[i] <- 1`, R56). -/
def setBits (v mask : Word) : Word := v ||| mask

/-- Clear the masked bits of a register, the others unchanged (R9 `reg[i] <- 0`, R56). -/
def clearBits (v mask : Word) : Word := v &&& ~~~mask

/-! ## The two error flags (R100) -/

/-- The two protocol-level error conditions, each recorded in one sticky bit of `sr` (R100). -/
inductive ErrorFlag where
  | underrun
  | overrun
  deriving DecidableEq, Repr

/-- The bit of `sr` in which an error condition is recorded (R100, its "code"). -/
def errorMask : ErrorFlag → Word
  | .underrun => srUnderrunMask
  | .overrun => srOverrunMask

/-! ## The two output functions -/

/-- `IrqLevel(cr2, sr)`, the interrupt-enable combinator (R105); true is 1, asserted. -/
def irqLevel (cr2 sr : Word) : Bool :=
  let txeInt := cr2Txeie cr2 && srTxe sr
  let rxneInt := cr2Rxneie cr2 && srRxne sr
  let errInt := cr2Errie cr2 && (srOverrun sr || srUnderrun sr)
  txeInt || rxneInt || errInt

/-- `CsLevel(cs, i)`, the chip-select decoder (R90); false is 0, the level the spec calls asserted. -/
def csLevel (cs : Word) (line : Fin 4) : Bool :=
  if csEnable cs line && csPolarity cs line then false else true

/-- The four levels packed as a nibble, bit `i` for line `i` (R90). -/
def csNibble (cs : Word) : Nibble :=
  BitVec.ofBool (csLevel cs 3) ++ BitVec.ofBool (csLevel cs 2) ++ BitVec.ofBool (csLevel cs 1) ++ BitVec.ofBool (csLevel cs 0)

end Sys2Proof.Machine
end

