-- ==== Sys2Proof/Config.lean ====
section
/-! DEFINITION. The parameters of the block (R8) and the values the spec leaves open: the Serial Link's answers (LINK, D12),
whether diagnostics are emitted (DIAG, D15), the two parameters that keep the losing readings of conflicts C1 and C2
reachable, the register window the host maps (BASE and WINDOW_BYTES, D7 and D8), and the reset values (R26). -/

namespace Sys2Proof

/-- What `dr` holds after a dropped write (R8 DR_ON_OVERRUN, R81, D10). -/
inductive DrOnOverrun where
  | keep
  | overwrite
  deriving DecidableEq, Repr

/-- The normative value of DR_ON_OVERRUN is `keep` (R81; conflict C1 of spec/90_conflicts.md). Log entry 8. -/
def Config.drOnOverrun : DrOnOverrun := .keep

/-- The normative value of IRQ_STALE_AFTER_RESET is false (R121; conflict C2 of spec/90_conflicts.md). Log entry 9. -/
def Config.irqStaleAfterReset : Bool := false

/-- FREE. DIAG: whether the diagnostic report of an undefined-offset access is emitted (R8, R103, D15). Log entry 7. -/
opaque Config.diagEnabled : Bool

/-- FREE. LINK: the byte the Serial Link answers (R8, R83, D12), as an oracle that may see the observed history (all
the block has sent out so far but diagnostic reports, which no collaborator observes, R103), the outbound byte of this exchange and the
present levels of the four lines. Log entry 4. -/
opaque Config.linkByte : List Machine.Event → Byte → Nibble → Byte

/-- The register window as the host maps it (R8, R30): BASE and WINDOW_BYTES, both open. -/
structure Window where
  base  : Nat
  bytes : Nat
  deriving DecidableEq, Repr

/-- A window's size is a multiple of 4 and at least 0x14, so that the five registers fit (R30). Its offsets are 32-bit
numbers, since the key has 32 offset bits (R46; DEDUCED, log entry 11). -/
def Window.ok (w : Window) : Bool :=
  w.bytes % 4 == 0 && decide (0x14 ≤ w.bytes) && decide (w.bytes ≤ 2 ^ 32)

/-- Reset values (R26), named as U9 of spec/93_implementation_defined.md advises. Log entry 13. -/
def Config.resetCr1 : Word := 0x00000000#32
def Config.resetCr2 : Word := 0x00000000#32
def Config.resetSr  : Word := 0x00000002#32
def Config.resetDr  : Word := 0x0000000C#32
def Config.resetCs  : Word := 0x00000000#32

end Sys2Proof
end

