-- ==== Sys2Proof/Machine/State.lean ====
section
/-! DEFINITION. The state: the block's five registers (R12), which are all the architectural state there is, and beside them what
stands at the block's ports (R7, R25). `irq` and `cs_line[i]` are no fields: they are functions of the registers (R24). -/

namespace Sys2Proof.Machine

/-- The reasons an operation can stop with a fault. There are none: "No condition in this core is fatal" (R100), and
nothing in the block is mapped to a fault (spec/93_implementation_defined.md). So the type has no constructor. Log entry 14. -/
inductive Fault where
  deriving DecidableEq, Repr

/-- The reasons a step gives a request no meaning. -/
inductive Refusal where
  /-- Raised by `exec` for an operation that has no meaning yet; here no operation is left without one. Safe. -/
  | notModelled (mnemonic : String)
  /-- Raised by `step` for an access whose width is not 32 bits: R35 says that a model refuses it. Safe. -/
  | undecodable (why : Reject)
  deriving DecidableEq, Repr

/-- The machine's state. The first five fields are the architectural state of R12; the others are the ports. -/
structure State where
  /-- CR1, control register 1 (R13). -/
  cr1 : Word
  /-- CR2, control register 2 (R14). -/
  cr2 : Word
  /-- SR, status register (R15 to R20). -/
  sr : Word
  /-- DR, data register (R21). -/
  dr : Word
  /-- CS-control, chip-select control register (R23). -/
  cs : Word
  /-- Host port: the requests not yet performed, oldest first (R39). Log entry 1. -/
  requests : List Request
  /-- Host port: what the last operation gave back to the host, none for a write or a reset (R45). Log entry 5. -/
  rdata : Option Word
  /-- Serial Link port: bytes the link is already known to answer next, oldest first (R83). Log entry 4. -/
  linkAnswers : List Byte
  /-- What the block has sent out of its ports, oldest first (R37). Log entry 6. -/
  trace : List Event
  deriving DecidableEq, Repr

/-- The machine right after reset (R26), with nothing at its ports. -/
def State.reset : State where
  cr1 := Config.resetCr1
  cr2 := Config.resetCr2
  sr := Config.resetSr
  dr := Config.resetDr
  cs := Config.resetCs
  requests := []
  rdata := none
  linkAnswers := []
  trace := []

end Sys2Proof.Machine
end

