-- ==== Sys2Proof/Machine/Ops.lean ====
section
/-! DEFINITION. The named operations the meanings are written with: register access, the answer to the host, the events
sent out, raising an error condition, one Serial Link exchange, the outputs.

The block takes no trap (R110): it saves no state, has no vector and no mode. What stands in the place of taking an
exception is `raiseError`, which records one of the two protocol errors (R100), and the level `irq` (R105). What stands
in the place of returning from one is software clearing the cause (R111), by `WR_SR` (`clearErrors`), `RD_DR` or `WR_CR2`. -/

namespace Sys2Proof.Machine

/-! ## Registers -/

/-- Read a register: its whole 32-bit value (R9, R49). -/
def State.get (s : State) : Reg → Word
  | .cr1 => s.cr1
  | .cr2 => s.cr2
  | .sr => s.sr
  | .dr => s.dr
  | .cs => s.cs

/-- Write a register: all 32 bits are replaced (R9). -/
def State.put (s : State) : Reg → Word → State
  | .cr1, v => { s with cr1 := v }
  | .cr2, v => { s with cr2 := v }
  | .sr, v => { s with sr := v }
  | .dr, v => { s with dr := v }
  | .cs, v => { s with cs := v }

/-- What the window holds at an offset: the register there, or what an undefined offset reads as (R31, R49). It has no side
effect: the side effect of a read is the operation's. -/
def State.window (s : State) (offset : Word) : Word :=
  match regAt offset with
  | some r => s.get r
  | none => undefinedReadValue

/-! ## The host port -/

/-- The operation gives this value back to the host (R9 `return v`). -/
def State.answer (s : State) (v : Word) : State := { s with rdata := some v }

/-- The operation gives nothing back (R45, R76). -/
def State.answerNothing (s : State) : State := { s with rdata := none }

/-! ## Events sent out -/

/-- Append events to what the block has sent out, in order. -/
def State.emit (s : State) (events : List Event) : State := { s with trace := s.trace ++ events }

/-- Re-evaluate the Interrupt Line: compute `IrqLevel(cr2, sr)` and drive `irq` with it (R9, R107). -/
def State.driveIrq (s : State) : State := s.emit [.irqDrive (irqLevel s.cr2 s.sr)]

/-- Re-derive all four Chip-Select Lines in full and drive each, changed or not (R91). -/
def State.driveLines (s : State) : State :=
  s.emit [.lineDrive 0 (csLevel s.cs 0), .lineDrive 1 (csLevel s.cs 1), .lineDrive 2 (csLevel s.cs 2),
          .lineDrive 3 (csLevel s.cs 3)]

/-- `Diag(kind, offset, wdata)`: the optional report, which no register or output depends on (R9, R103). -/
def State.report (s : State) (kind : DiagKind) (offset : Word) (wdata : Option Word) : State :=
  s.emit (if Config.diagEnabled then [.diag kind offset wdata] else [])

/-! ## Error conditions -/

/-- Record an error condition in its sticky flag, every other bit as before (R100, R101, R102). -/
def State.raiseError (s : State) (e : ErrorFlag) : State := s.put .sr (setBits s.sr (errorMask e))

/-- Clear the error flags whose bits of the datum are 1: write-1-to-clear (R72). -/
def State.clearErrors (s : State) (wdata : Word) : State := s.put .sr (clearBits s.sr (srClearMask wdata))

/-! ## The Serial Link -/

/-- The byte the Serial Link answers to this outbound byte: the next scheduled answer, or the free value of the
observed history (R83), which a diagnostic report is no part of (R103). -/
def State.linkAnswer (s : State) (tx : Byte) : Byte :=
  match s.linkAnswers with
  | rx :: _ => rx
  | [] => Config.linkByte (observedHistory s.trace) tx (csNibble s.cs)

/-- One exchange took place: its answer is used up and the exchange is on record (R37, R83). -/
def State.exchanged (s : State) (tx rx : Byte) : State :=
  { s with linkAnswers := s.linkAnswers.drop 1, trace := s.trace ++ [.exchange tx rx] }

/-- `LinkExchange(tx) -> rx`: exactly one exchange, which always returns a byte (R9, R83). -/
def State.linkExchange (s : State) (tx : Byte) : Byte × State :=
  (s.linkAnswer tx, s.exchanged tx (s.linkAnswer tx))

/-! ## Outputs: functions of the registers, observed between operations (R24, R38) -/

/-- The level the software view last pushed to the Interrupt Line; 0 before any push (R24, R107). -/
def lastIrqDrive (trace : List Event) : Bool :=
  trace.foldl (fun level e => match e with | .irqDrive l => l | _ => level) false

/-- The level the software view last pushed to a Chip-Select Line; 1 before any push (R24, R91). -/
def lastLineDrive (line : Fin 4) (trace : List Event) : Bool :=
  trace.foldl (fun level e => match e with | .lineDrive i l => if i = line then l else level | _ => level) true

/-- The level of the Interrupt Line under either value of IRQ_STALE_AFTER_RESET (R8, R121): the function of the registers,
or the last pushed level, which differs from it only after a reset taken while the line was 1. -/
def irqOutput (stale : Bool) (s : State) : Bool :=
  if stale then lastIrqDrive s.trace else irqLevel s.cr2 s.sr

/-- The Interrupt Line `irq`: `IrqLevel(cr2, sr)` (R24, R105), the normative reading of R121. -/
def State.irq (s : State) : Bool := irqOutput Config.irqStaleAfterReset s

/-- The Chip-Select Line `cs_line[i]`: `CsLevel(cs, i)` (R24, R90). -/
def State.line (s : State) (line : Fin 4) : Bool := csLevel s.cs line

end Sys2Proof.Machine
end

