-- ==== Sys2Proof/Machine/Read.lean ====
section
/-! DEFINITION. The six read operations (spec/40_register_read.md). A read returns the whole register, unmasked (R49),
and only `RD_DR` has a side effect (R66). -/

namespace Sys2Proof.Machine

/-- `RD_CR1`: `return cr1` (R60). -/
def execRdCr1 (s : State) : Host.Outcome State Fault Refusal := .next (s.answer (s.get .cr1))

/-- `RD_CR2`: `return cr2` (R61). -/
def execRdCr2 (s : State) : Host.Outcome State Fault Refusal := .next (s.answer (s.get .cr2))

/-- `RD_SR`: `return sr`; reading clears nothing (R62). -/
def execRdSr (s : State) : Host.Outcome State Fault Refusal := .next (s.answer (s.get .sr))

/-- What `RD_DR` does to `sr` (R63): RXNE clear, it sets UNDERRUN; RXNE set, it clears RXNE. -/
def consumeOrUnderrun (s : State) : State :=
  if srRxne s.sr then s.put .sr (clearBits s.sr srRxneMask) else s.raiseError .underrun

/-- `RD_DR` (R63): both branches return `dr`, which a read never changes, and re-evaluate the Interrupt Line. -/
def execRdDr (s : State) : Host.Outcome State Fault Refusal :=
  .next ((consumeOrUnderrun s).driveIrq.answer (s.get .dr))

/-- `RD_CS`: `return cs` (R64). -/
def execRdCs (s : State) : Host.Outcome State Fault Refusal := .next (s.answer (s.get .cs))

/-- `RD_UNDEF`: the optional report, and 0 (R65). -/
def execRdUndef (offset : Word) (s : State) : Host.Outcome State Fault Refusal :=
  .next ((s.report .badRead offset none).answer undefinedReadValue)

end Sys2Proof.Machine
end

