-- ==== Sys2Proof/Machine/Reset.lean ====
section
/-! DEFINITION. The reset operation (R120). -/

namespace Sys2Proof.Machine

/-- Every register takes its reset value, whatever it held (R26, R120). -/
def State.resetRegisters (s : State) : State :=
  { s with cr1 := Config.resetCr1, cr2 := Config.resetCr2, sr := Config.resetSr, dr := Config.resetDr, cs := Config.resetCs }

/-- `RESET` (R120): the five registers, then all four lines re-derived; the Interrupt Line is not driven (R107) and is 0
all the same (R121). The host's further requests and the Serial Link are outside the block and stay. -/
def execReset (s : State) : Host.Outcome State Fault Refusal :=
  .next s.resetRegisters.driveLines.answerNothing

end Sys2Proof.Machine
end

