-- ==== Sys2Proof/Machine/Transfer.lean ====
section
/-! DEFINITION. The Transfer (spec/42_transfer.md), which runs only inside `WR_DR` (R80). -/

namespace Sys2Proof.Machine

/-- The overrun branch (R81): OVERRUN is set, the outbound byte is dropped, the Serial Link is not called, the line is
re-evaluated. Under `keep`, the normative value, `dr` is not written; `overwrite` is the losing reading of conflict C1. -/
def overrunBranch (onOverrun : DrOnOverrun) (tx : Byte) (s : State) : State :=
  let s := s.raiseError .overrun
  let s := match onOverrun with
    | .keep => s
    | .overwrite => s.put .dr (zext32 tx)
  s.driveIrq

/-- The exchange branch (R82), statement by statement; the transient of R84 stays inside this one operation. -/
def exchangeBranch (tx : Byte) (s : State) : State :=
  let s := s.put .dr (zext32 tx)
  let s := s.put .sr (clearBits s.sr srRxneMask)
  let s := s.put .sr (clearBits s.sr srTxeMask)
  let (rx, s) := s.linkExchange (trunc8 s.dr)
  let s := s.put .dr (zext32 rx)
  let s := s.put .sr (setBits s.sr srRxneMask)
  let s := s.put .sr (setBits s.sr srTxeMask)
  s.driveIrq

/-- The Transfer tests exactly one bit, RXNE (R80). -/
def transfer (onOverrun : DrOnOverrun) (tx : Byte) (s : State) : State :=
  if srRxne s.sr then overrunBranch onOverrun tx s else exchangeBranch tx s

end Sys2Proof.Machine
end

