-- ==== Sys2Proof/Machine/Write.lean ====
section
/-! DEFINITION. The six write operations (spec/41_register_write.md). A write returns nothing and always completes (R76). -/

namespace Sys2Proof.Machine

/-- `WR_CR1`: all 32 bits stored, no further effect (R70). -/
def execWrCr1 (wdata : Word) (s : State) : Host.Outcome State Fault Refusal :=
  .next (s.put .cr1 wdata).answerNothing

/-- `WR_CR2`: all 32 bits stored, then the Interrupt Line re-evaluated (R71). -/
def execWrCr2 (wdata : Word) (s : State) : Host.Outcome State Fault Refusal :=
  .next (s.put .cr2 wdata).driveIrq.answerNothing

/-- `WR_SR`: write-1-to-clear of the two error flags, then the Interrupt Line re-evaluated (R72). -/
def execWrSr (wdata : Word) (s : State) : Host.Outcome State Fault Refusal :=
  .next (s.clearErrors wdata).driveIrq.answerNothing

/-- `WR_DR`: offer the low byte of the datum and run the Transfer (R73, R80). -/
def execWrDr (wdata : Word) (s : State) : Host.Outcome State Fault Refusal :=
  .next (transfer Config.drOnOverrun (trunc8 wdata) s).answerNothing

/-- `WR_CS`: the low byte stored, then all four lines re-derived (R74). -/
def execWrCs (wdata : Word) (s : State) : Host.Outcome State Fault Refusal :=
  .next (s.put .cs (zext32 (trunc8 wdata))).driveLines.answerNothing

/-- `WR_UNDEF`: the optional report and nothing else (R75). -/
def execWrUndef (offset wdata : Word) (s : State) : Host.Outcome State Fault Refusal :=
  .next (s.report .badWrite offset (some wdata)).answerNothing

end Sys2Proof.Machine
end

