-- ==== Sys2Proof/Machine/Dispatch.lean ====
section
/-! DEFINITION. One arm per operation of R51. -/

namespace Sys2Proof.Machine

def exec (i : Instr) (s : State) : Host.Outcome State Fault Refusal :=
  match i with
  | .rdCr1 => Sys2Proof.Machine.execRdCr1 s
  | .rdCr2 => Sys2Proof.Machine.execRdCr2 s
  | .rdSr => Sys2Proof.Machine.execRdSr s
  | .rdDr => Sys2Proof.Machine.execRdDr s
  | .rdCs => Sys2Proof.Machine.execRdCs s
  | .rdUndef offset => Sys2Proof.Machine.execRdUndef offset s
  | .wrCr1 wdata => Sys2Proof.Machine.execWrCr1 wdata s
  | .wrCr2 wdata => Sys2Proof.Machine.execWrCr2 wdata s
  | .wrSr wdata => Sys2Proof.Machine.execWrSr wdata s
  | .wrDr wdata => Sys2Proof.Machine.execWrDr wdata s
  | .wrCs wdata => Sys2Proof.Machine.execWrCs wdata s
  | .wrUndef offset wdata => Sys2Proof.Machine.execWrUndef offset wdata s
  | .reset => Sys2Proof.Machine.execReset s

end Sys2Proof.Machine
end

