-- ==== Sys2Proof/Machine/Step.lean ====
section
/-! DEFINITION. One step: the block performs the oldest request of the host (R39), whole and at once (R38). -/

namespace Sys2Proof.Machine

/-- With no request nothing happens, for between two host operations nothing in the block changes (R6). A request is taken
from the port and its operation performed; one that has no instruction is refused by name (R35). -/
def step (s : State) : Host.Outcome State Fault Refusal :=
  match s.requests with
  | [] => .next s
  | r :: rest =>
    match decodeRequest r with
    | .ok i => exec i { s with requests := rest }
    | .error why => .refused (.undecodable why)

/-- The state in which the host's next request is the operation of this table word; the requests already there come after it. -/
def State.withFetchWord (s : State) (nbits w : Nat) : State :=
  { s with requests := requestOfTableWord nbits w :: s.requests }

end Sys2Proof.Machine
end

