-- ==== Sys2Proof/Machine/HostView.lean ====
section
/-! DEFINITION. The block as the host's side sees it: loads and stores at absolute addresses (R9 `MemRead` and `MemWrite`, R30, R55), and the
snapshot a harness may offer, which is no operation of the block (R139). -/

namespace Sys2Proof.Machine

/-- The width of a host access of `n` bytes (R35). -/
def widthOfSize (n : Nat) : AccessWidth := if n = 4 then .word32 else .other n

/-- The window offset of an absolute address: the host subtracts BASE before the access reaches the block, and an address
outside the window never reaches it (R30). -/
def windowOffset (w : Window) (addr : Nat) : Option Word :=
  if w.base ≤ addr ∧ addr < w.base + w.bytes then some (BitVec.ofNat 32 (addr - w.base)) else none

/-- `MemRead(addr, n)`: the request a host load makes of the block, if it reaches it (R9, R55). -/
def memRead (w : Window) (addr n : Nat) : Option Request :=
  (windowOffset w addr).map fun offset => .read (widthOfSize n) offset

/-- `MemWrite(addr, n, v)`: the request a host store makes of the block, if it reaches it (R9, R55). -/
def memWrite (w : Window) (addr n v : Nat) : Option Request :=
  (windowOffset w addr).map fun offset => .write (widthOfSize n) offset v

/-- The five fields a snapshot holds (R139). -/
structure Snapshot where
  cr1 : Word
  cr2 : Word
  sr  : Word
  dr  : Word
  cs  : Word
  deriving DecidableEq, Repr

/-- Take a snapshot (R139). -/
def State.save (s : State) : Snapshot := ⟨s.cr1, s.cr2, s.sr, s.dr, s.cs⟩

/-- Restore a snapshot: the five fields take the given values and nothing else happens (R139). -/
def State.restore (s : State) (p : Snapshot) : State :=
  { s with cr1 := p.cr1, cr2 := p.cr2, sr := p.sr, dr := p.dr, cs := p.cs }

end Sys2Proof.Machine
end

