-- ==== Sys2Proof/Safety.lean ====
section
/-! DEFINITION. What claims are stated with: the invariants of reachable states (R22, R24), sequences of operations, what the
block has sent out, and when a run is safe. -/

namespace Sys2Proof.Machine

/-- The invariant of R22 (a) to (d): TXE is 1, and the bits no operation sets read as 0. -/
abbrev RegInv (s : State) : Prop :=
  s.sr.getLsbD 1 = true ∧ s.sr.extractLsb' 4 28 = 0#28 ∧ s.dr.extractLsb' 8 24 = 0#24 ∧ s.cs.extractLsb' 8 24 = 0#24

/-- The eight values `sr` takes in reachable states (R22 (b)). -/
def reachableStatus : List Word :=
  [0x2#32, 0x3#32, 0x6#32, 0x7#32, 0xA#32, 0xB#32, 0xE#32, 0xF#32]

/-- The pushed view of the lines agrees with the function of `cs` (R24, R91). -/
abbrev PushedLinesAgree (s : State) : Prop :=
  ∀ line : Fin 4, lastLineDrive line s.trace = csLevel s.cs line

/-- The pushed view of the Interrupt Line agrees with the function of `cr2` and `sr` (R24, R107). -/
abbrev PushedIrqAgrees (s : State) : Prop :=
  lastIrqDrive s.trace = irqLevel s.cr2 s.sr

/-- The Serial Link exchanges among the events, in order: outbound and inbound byte (R39). -/
def exchangesOf (trace : List Event) : List (Byte × Byte) :=
  trace.filterMap fun e => match e with | .exchange tx rx => some (tx, rx) | _ => none

/-- The drives of Chip-Select Lines among the events, in order (R91). -/
def lineDrivesOf (trace : List Event) : List (Fin 4 × Bool) :=
  trace.filterMap fun e => match e with | .lineDrive i level => some (i, level) | _ => none

/-- The drives of the Interrupt Line among the events, in order (R107). -/
def irqDrivesOf (trace : List Event) : List Bool :=
  trace.filterMap fun e => match e with | .irqDrive level => some level | _ => none

/-- The five registers are the same (R12). -/
abbrev SameRegisters (s t : State) : Prop :=
  t.cr1 = s.cr1 ∧ t.cr2 = s.cr2 ∧ t.sr = s.sr ∧ t.dr = s.dr ∧ t.cs = s.cs

/-- The five outputs are the same (R24). -/
abbrev SameOutputs (s t : State) : Prop :=
  t.irq = s.irq ∧ ∀ line : Fin 4, t.line line = s.line line

/-- The read operations (R66). -/
def isRead : Instr → Bool
  | .rdCr1 | .rdCr2 | .rdSr | .rdDr | .rdCs | .rdUndef _ => true
  | .wrCr1 _ | .wrCr2 _ | .wrSr _ | .wrDr _ | .wrCs _ | .wrUndef _ _ | .reset => false

/-- The write operations (R76). -/
def isWrite : Instr → Bool
  | .wrCr1 _ | .wrCr2 _ | .wrSr _ | .wrDr _ | .wrCs _ | .wrUndef _ _ => true
  | .rdCr1 | .rdCr2 | .rdSr | .rdDr | .rdCs | .rdUndef _ | .reset => false

/-- A sequence of operations, each in the state the one before it left (R39). -/
def execAll : List Instr → State → Host.Outcome State Fault Refusal
  | [], s => .next s
  | i :: is, s =>
    match exec i s with
    | .next t => execAll is t
    | .fault r => .fault r
    | .refused r => .refused r

/-- The host keeps its duty on access width (R35): the request is a reset or an access of 32 bits. -/
def keepsWidth : Request → Bool
  | .read .word32 _ => true
  | .write .word32 _ _ => true
  | .read (.other _) _ => false
  | .write (.other _) _ _ => false
  | .reset => true

/-- A SAFE state: every request the host has issued keeps its duty on access width; then no step stops. -/
abbrev HostKeepsWidth (s : State) : Prop := ∀ r ∈ s.requests, keepsWidth r = true

/-- The states reached from the state right after reset by operations of the block (R22). -/
inductive Reachable : State → Prop where
  | reset : Reachable State.reset
  | after {s t : State} (i : Instr) : Reachable s → exec i s = .next t → Reachable t

end Sys2Proof.Machine
end

