-- ==== Sys2Proof/Certificates/Slice0/Obligations.lean ====
section
/-! DEFINITION. The statements for the provers. Each is about the model's `step`, `exec`, decoder or output functions; the
values in them are written out from the rules they formalise. Levels are `true` for 1 and `false` for 0. -/

open Sys2Proof Sys2Proof.Machine

/-! ## Steps, decoding and encoding -/

/-- R38, R39: a step takes the oldest request and runs exactly its operation; the later requests wait. -/
def Obligations.StepRunsTheOldestRequest : Prop :=
  ∀ (s : State) (r : Request) (rest : List Request) (i : Instr),
    s.requests = r :: rest → decodeRequest r = .ok i → step s = exec i { s with requests := rest }

/-- R6: between two host operations nothing changes. A step with no request leaves the whole state as it was (that such a step is taken
at all is log entry 1). -/
def Obligations.StepWithoutARequestChangesNothing : Prop :=
  ∀ s : State, s.requests = [] → step s = .next s

/-- R35, with R53, R66 and R76 for completion: only 32-bit accesses have a meaning, another width is refused by name, whatever its offset; every
32-bit access completes; of a wider data bus the low 32 bits of the
datum are taken, at every offset; the read result on a wider bus is the 32-bit value zero-extended. That
the truncation and the refusal hold at every offset, and the zero-extension, are the DEDUCED and DESIGN CHOICE rows of log entry 10 (decisions D4 and D5). -/
def Obligations.OnlyThirtyTwoBitAccessesHaveAMeaning : Prop :=
  (∀ (s : State) (rest : List Request) (code : Nat) (offset : Word) (data : Nat),
    (s.requests = .read (.other code) offset :: rest →
      step s = .refused (.undecodable (.accessWidth (.other code)))) ∧
    (s.requests = .write (.other code) offset data :: rest →
      step s = .refused (.undecodable (.accessWidth (.other code))))) ∧
  (∀ (s : State) (rest : List Request) (offset : Word) (data : Nat),
    (s.requests = .read .word32 offset :: rest → ∃ t, step s = .next t) ∧
    (s.requests = .write .word32 offset data :: rest → ∃ t, step s = .next t)) ∧
  (∀ (offset : Word) (data : Nat),
    decodeRequest (.write .word32 offset data) = decodeRequest (.write .word32 offset (data % 2 ^ 32))) ∧
  (∀ (s : State) (data : Nat), ∃ i t,
    decodeRequest (.write .word32 0x00#32 data) = .ok i ∧ exec i s = .next t ∧ t.cr1.toNat = data % 2 ^ 32) ∧
  (∀ v : Word, busResult v = v.toNat)

/-- R39: one stream, in order. From any state whose first requests are these operations' requests, as many steps as there are
operations do what the operations do one after the other. -/
def Obligations.RequestsRunInOrder : Prop :=
  ∀ (is : List Instr) (rest : List Request) (s : State),
    (∀ i ∈ is, i.wellFormed = true) → s.requests = is.map requestOf ++ rest →
    Sys2Proof.core.run is.length s = execAll is { s with requests := rest }

/-- R53, R76 and R100 together with R35: where the host keeps its duty on access width, no step faults or is refused, and the duty is still kept. -/
def Obligations.NoStepStopsForADutifulHost : Prop :=
  ∀ s : State, HostKeepsWidth s → ∃ t, step s = .next t ∧ HostKeepsWidth t

/-- R51: the operation map, its ten full keys and one key of each default row. -/
def Obligations.TableKeysDecodeToTheirOperations : Prop :=
  decodeKey 0x000000000#33 0x0#32 = .rdCr1 ∧ decodeKey 0x000000004#33 0x0#32 = .rdCr2 ∧
  decodeKey 0x000000008#33 0x0#32 = .rdSr ∧ decodeKey 0x00000000C#33 0x0#32 = .rdDr ∧
  decodeKey 0x000000010#33 0x0#32 = .rdCs ∧ decodeKey 0x000000014#33 0x0#32 = .rdUndef 0x14#32 ∧
  decodeKey 0x100000000#33 0x44#32 = .wrCr1 0x44#32 ∧ decodeKey 0x100000004#33 0x60#32 = .wrCr2 0x60#32 ∧
  decodeKey 0x100000008#33 0x8#32 = .wrSr 0x8#32 ∧ decodeKey 0x10000000C#33 0xA5#32 = .wrDr 0xA5#32 ∧
  decodeKey 0x100000010#33 0x11#32 = .wrCs 0x11#32 ∧
  decodeKey 0x100000018#33 0xFFFFFFFF#32 = .wrUndef 0x18#32 0xFFFFFFFF#32

/-- R52: decoding is a match on the exact offset, all 32 bits of it, and it is total: for every key and datum, by direction and
offset, and for no other reason, exactly one operation. -/
def Obligations.DecodingIsByExactOffset : Prop :=
  ∀ (offset wdata : Word),
    decodeKey (BitVec.ofBool false ++ offset) wdata =
      (if offset = 0x00#32 then .rdCr1 else if offset = 0x04#32 then .rdCr2 else if offset = 0x08#32 then .rdSr
        else if offset = 0x0C#32 then .rdDr else if offset = 0x10#32 then .rdCs else .rdUndef offset) ∧
    decodeKey (BitVec.ofBool true ++ offset) wdata =
      (if offset = 0x00#32 then .wrCr1 wdata else if offset = 0x04#32 then .wrCr2 wdata
        else if offset = 0x08#32 then .wrSr wdata else if offset = 0x0C#32 then .wrDr wdata
        else if offset = 0x10#32 then .wrCs wdata else .wrUndef offset wdata) ∧
    decodeRequest .reset = .ok .reset

/-- Decoding the nine bytes the encoder writes for a well-formed operation gives that operation back, with its offset and
its datum whole, whatever bytes follow. The byte frame is the model's own notation (log entry 2) of the keys of R51. -/
def Obligations.DecodeOfEncodeIsTheOperation : Prop :=
  ∀ (i : Instr) (rest : List Byte), i.wellFormed = true → decode (encode i ++ rest) = .ok (i, rest)

/-- The other direction: whatever bytes decode to is a well-formed operation; and nine bytes decode to an operation exactly where they spell a
32-bit transaction or the reset request, the operation of their key, direction and datum, and are rejected as an access of another width
elsewhere (R35; log entry 2 for the frame, log entry 10 for the width). -/
def Obligations.DecodedOperationsAreWellFormed : Prop :=
  (∀ (bytes rest : List Byte) (i : Instr), decode bytes = .ok (i, rest) → i.wellFormed = true) ∧
  (∀ (f : BitVec 72) (rest : List Byte),
    (frameForm f = 0#7 →
      decode (bytesOfFrame f ++ rest) =
        .ok (decodeKey (frameKey f) (if keyIsWrite (frameKey f) then frameData f else 0#32), rest)) ∧
    (frameForm f = 1#7 → decode (bytesOfFrame f ++ rest) = .ok (.reset, rest)) ∧
    (frameForm f ≠ 0#7 → frameForm f ≠ 1#7 →
      decode (bytesOfFrame f ++ rest) = .error (.accessWidth (.other (frameForm f).toNat))))

/-- The host's table words: the 40-bit word that holds a key (R46) is read by the decoder as the key's operation with a
zero datum, and the very next step runs exactly that operation, whatever requests wait behind it; a row with no bits is the
reset request (log entries 2 and 3). -/
def Obligations.TableWordsAreFetchedAndRun : Prop :=
  (∀ (s : State) (k : Key),
    decodeTableWord 40 k.toNat = some (decodeKey k 0#32) ∧
    step (s.withFetchWord 40 k.toNat) = exec (decodeKey k 0#32) s) ∧
  (∀ s : State, decodeTableWord 0 0 = some .reset ∧ step (s.withFetchWord 0 0) = exec .reset s)

/-- R30, R55: whatever the window, a host load or store of 4 bytes at BASE plus a register's offset is that register's read
or write; one of another size in the window is refused (R35, log entry 10); one outside the window never reaches the block. That a window has at most 2^32
bytes, the last part of `Window.ok`, is the DEDUCED row of log entry 11. -/
def Obligations.HostLoadsAndStoresReachTheirRegister : Prop :=
  ∀ w : Window, w.ok = true →
    (∀ v : Word,
      (memRead w (w.base + 0x00) 4).map decodeRequest = some (.ok .rdCr1) ∧
      (memRead w (w.base + 0x04) 4).map decodeRequest = some (.ok .rdCr2) ∧
      (memRead w (w.base + 0x08) 4).map decodeRequest = some (.ok .rdSr) ∧
      (memRead w (w.base + 0x0C) 4).map decodeRequest = some (.ok .rdDr) ∧
      (memRead w (w.base + 0x10) 4).map decodeRequest = some (.ok .rdCs) ∧
      (memWrite w (w.base + 0x00) 4 v.toNat).map decodeRequest = some (.ok (.wrCr1 v)) ∧
      (memWrite w (w.base + 0x04) 4 v.toNat).map decodeRequest = some (.ok (.wrCr2 v)) ∧
      (memWrite w (w.base + 0x08) 4 v.toNat).map decodeRequest = some (.ok (.wrSr v)) ∧
      (memWrite w (w.base + 0x0C) 4 v.toNat).map decodeRequest = some (.ok (.wrDr v)) ∧
      (memWrite w (w.base + 0x10) 4 v.toNat).map decodeRequest = some (.ok (.wrCs v))) ∧
    (∀ (offset : Nat) (v : Word), offset < w.bytes →
      offset ≠ 0x00 → offset ≠ 0x04 → offset ≠ 0x08 → offset ≠ 0x0C → offset ≠ 0x10 →
      (memRead w (w.base + offset) 4).map decodeRequest = some (.ok (.rdUndef (BitVec.ofNat 32 offset))) ∧
      (memWrite w (w.base + offset) 4 v.toNat).map decodeRequest = some (.ok (.wrUndef (BitVec.ofNat 32 offset) v))) ∧
    (∀ (offset n v : Nat), offset < w.bytes → n ≠ 4 →
      (memRead w (w.base + offset) n).map decodeRequest = some (.error (.accessWidth (.other n))) ∧
      (memWrite w (w.base + offset) n v).map decodeRequest = some (.error (.accessWidth (.other n)))) ∧
    (∀ (addr n v : Nat), addr < w.base ∨ w.base + w.bytes ≤ addr → memRead w addr n = none ∧ memWrite w addr n v = none)

/-! ## Reset -/

/-- R26: after the reset operation, from every state, and in the state the model starts from, the registers, their fields
and the five outputs have the stated values. -/
def Obligations.ResetLeavesTheStatedValues : Prop :=
  (∀ s : State, ∃ t, exec .reset s = .next t ∧
    t.cr1 = 0x00000000#32 ∧ t.cr2 = 0x00000000#32 ∧ t.sr = 0x00000002#32 ∧ t.dr = 0x0000000C#32 ∧ t.cs = 0x00000000#32 ∧
    t.irq = false ∧ t.line 0 = true ∧ t.line 1 = true ∧ t.line 2 = true ∧ t.line 3 = true ∧
    cr1Spe t.cr1 = false ∧ cr1Mstr t.cr1 = false ∧ cr2Txeie t.cr2 = false ∧ cr2Rxneie t.cr2 = false ∧
    cr2Errie t.cr2 = false ∧ srRxne t.sr = false ∧ srTxe t.sr = true ∧ srUnderrun t.sr = false ∧
    srOverrun t.sr = false ∧ srBusy t.sr = false ∧ trunc8 t.dr = 0x0C#8 ∧
    ∀ line : Fin 4, csEnable t.cs line = false ∧ csPolarity t.cs line = false) ∧
  State.reset.cr1 = 0x00000000#32 ∧ State.reset.cr2 = 0x00000000#32 ∧ State.reset.sr = 0x00000002#32 ∧
  State.reset.dr = 0x0000000C#32 ∧ State.reset.cs = 0x00000000#32 ∧ State.reset.irq = false ∧
  ∀ line : Fin 4, State.reset.line line = true

/-- R120, R121: all that the reset operation does, from every state, and its corner cases: `irq` is 0 after it even where it was 1
before, no Serial Link call, one drive of each line in some order and none of `irq`; a second reset changes no register; the
first `RD_DR` after it returns 0x0C and sets UNDERRUN; clearing SPE, or any `WR_CR1`, is not a reset. -/
def Obligations.ResetOperationWhole : Prop :=
  ∀ s : State,
    (∃ drives : List Event, exec .reset s = .next
      { cr1 := 0x00000000#32, cr2 := 0x00000000#32, sr := 0x00000002#32, dr := 0x0000000C#32, cs := 0x00000000#32,
        requests := s.requests, rdata := none, linkAnswers := s.linkAnswers, trace := s.trace ++ drives } ∧
      drives.Perm [.lineDrive 0 true, .lineDrive 1 true, .lineDrive 2 true, .lineDrive 3 true]) ∧
    (∀ t, exec .reset s = .next t → t.irq = false ∧
      (∃ u, exec .reset t = .next u ∧ SameRegisters t u) ∧
      (∃ u, exec .rdDr t = .next u ∧ u.rdata = some 0x0000000C#32 ∧ u.sr = 0x00000006#32)) ∧
    (∀ w t, exec (.wrCr1 w) s = .next t → t.cr2 = s.cr2 ∧ t.sr = s.sr ∧ t.dr = s.dr ∧ t.cs = s.cs)

/-- R122: what reads give after reset, whatever the state before it. -/
def Obligations.ReadsAfterReset : Prop :=
  ∀ s t : State, exec .reset s = .next t →
    (∃ u, exec .rdSr t = .next u ∧ u.rdata = some 0x00000002#32) ∧
    (∃ u, exec .rdDr t = .next u ∧ u.rdata = some 0x0000000C#32 ∧ srUnderrun u.sr = true) ∧
    (∃ u, exec .rdCr1 t = .next u ∧ u.rdata = some 0x0#32) ∧
    (∃ u, exec .rdCr2 t = .next u ∧ u.rdata = some 0x0#32) ∧
    (∃ u, exec .rdCs t = .next u ∧ u.rdata = some 0x0#32) ∧
    (∀ line : Fin 4, t.line line = true) ∧ t.irq = false

/-! ## Reads -/

/-- R60, R61, R62, R64: each of the four plain reads returns its whole register and changes nothing else at all, neither a register
nor an output nor anything sent out, so that reading again gives the same state; what they return after a write and after reset; and what
`sr` can be in a reachable state. -/
def Obligations.PlainReadsReturnTheirRegister : Prop :=
  ∀ s : State,
    (∀ d : Word, decodeKey 0x000000000#33 d = .rdCr1 ∧ decodeKey 0x000000004#33 d = .rdCr2 ∧
      decodeKey 0x000000008#33 d = .rdSr ∧ decodeKey 0x000000010#33 d = .rdCs) ∧
    exec .rdCr1 s = .next { s with rdata := some s.cr1 } ∧
    exec .rdCr2 s = .next { s with rdata := some s.cr2 } ∧
    exec .rdSr s = .next { s with rdata := some s.sr } ∧
    exec .rdCs s = .next { s with rdata := some s.cs } ∧
    (∀ (i : Instr) (t : State), i = .rdCr1 ∨ i = .rdCr2 ∨ i = .rdSr ∨ i = .rdCs → exec i s = .next t →
      SameRegisters s t ∧ SameOutputs s t ∧ t.trace = s.trace ∧ exec i t = .next t) ∧
    (∀ (v : Word) (t : State),
      (exec (.wrCr1 v) s = .next t → exec .rdCr1 t = .next { t with rdata := some v }) ∧
      (exec (.wrCr2 v) s = .next t → exec .rdCr2 t = .next { t with rdata := some v }) ∧
      (exec (.wrCs v) s = .next t → exec .rdCs t = .next { t with rdata := some (v &&& 0x000000FF#32) })) ∧
    (∀ t, exec .reset s = .next t →
      exec .rdCr1 t = .next { t with rdata := some 0x00000000#32 } ∧
      exec .rdCr2 t = .next { t with rdata := some 0x00000000#32 } ∧
      exec .rdSr t = .next { t with rdata := some 0x00000002#32 } ∧
      exec .rdCs t = .next { t with rdata := some 0x00000000#32 }) ∧
    (RegInv s → s.sr ∈ [0x2#32, 0x3#32, 0x6#32, 0x7#32, 0xA#32, 0xB#32, 0xE#32, 0xF#32] ∧ s.sr.getLsbD 7 = false)

/-- R63: `RD_DR`, both branches, bit by bit. It returns all of `dr`, unchanged; RXNE is 0 afterwards; UNDERRUN is set
exactly where RXNE was 0; every other bit, register and scheduled answer is as before; `irq` is driven with the level of the
new `sr`. -/
def Obligations.ReadDrConsumesOrUnderruns : Prop :=
  ∀ s : State, ∃ t, (∀ d, decodeKey 0x00000000C#33 d = .rdDr) ∧ exec .rdDr s = .next t ∧ t.rdata = some s.dr ∧
    t.cr1 = s.cr1 ∧ t.cr2 = s.cr2 ∧ t.dr = s.dr ∧ t.cs = s.cs ∧
    (∀ j < 32, t.sr.getLsbD j =
      if j = 0 then false else if j = 2 then (s.sr.getLsbD 2 || !s.sr.getLsbD 0) else s.sr.getLsbD j) ∧
    t.trace = s.trace ++ [.irqDrive t.irq] ∧ t.linkAnswers = s.linkAnswers ∧ t.requests = s.requests ∧
    (∀ line : Fin 4, t.line line = s.line line)

/-- R65: a read at any offset but the five returns 0 and changes nothing; the diagnostic is optional. -/
def Obligations.UndefinedReadReturnsZero : Prop :=
  ∀ (s : State) (offset wdata : Word),
    offset ≠ 0x00#32 → offset ≠ 0x04#32 → offset ≠ 0x08#32 → offset ≠ 0x0C#32 → offset ≠ 0x10#32 →
    decodeKey (BitVec.ofBool false ++ offset) wdata = .rdUndef offset ∧
    exec (.rdUndef offset) s = .next
      { s with rdata := some 0x00000000#32,
               trace := s.trace ++ (if Config.diagEnabled then [.diag .badRead offset none] else []) } ∧
    ∀ t, exec (.rdUndef offset) s = .next t → SameRegisters s t ∧ SameOutputs s t

/-- R66: what all reads have in common. -/
def Obligations.ReadsInCommon : Prop :=
  ∀ (i : Instr) (s : State), isRead i = true → ∃ t v, exec i s = .next t ∧ t.rdata = some v ∧
    t.cr1 = s.cr1 ∧ t.cr2 = s.cr2 ∧ t.dr = s.dr ∧ t.cs = s.cs ∧ (i ≠ .rdDr → t.sr = s.sr ∧ t.irq = s.irq) ∧
    (i = .rdDr → v = s.dr ∧ (srRxne s.sr = false → srUnderrun t.sr = true)) ∧
    exchangesOf t.trace = exchangesOf s.trace ∧ t.linkAnswers = s.linkAnswers ∧
    lineDrivesOf t.trace = lineDrivesOf s.trace ∧ ∀ line : Fin 4, t.line line = s.line line

/-! ## Writes -/

/-- R70: `WR_CR1` stores all 32 bits and changes nothing else. -/
def Obligations.WriteCr1StoresAllBits : Prop :=
  ∀ (s : State) (wdata : Word),
    decodeKey 0x100000000#33 wdata = .wrCr1 wdata ∧
    exec (.wrCr1 wdata) s = .next { s with cr1 := wdata, rdata := none } ∧
    ∀ t, exec (.wrCr1 wdata) s = .next t → SameOutputs s t ∧ (wdata = s.cr1 → SameRegisters s t)

/-- R71: `WR_CR2` stores all 32 bits and drives `irq` with the level of the new `cr2`; its corner cases (a) to (d). -/
def Obligations.WriteCr2StoresAllBitsAndDrivesIrq : Prop :=
  ∀ (s : State) (wdata : Word), ∃ t,
    decodeKey 0x100000004#33 wdata = .wrCr2 wdata ∧
    exec (.wrCr2 wdata) s = .next t ∧ t = { s with cr2 := wdata, rdata := none, trace := s.trace ++ [.irqDrive t.irq] } ∧
    t.irq = ((wdata.getLsbD 7 && s.sr.getLsbD 1) || (wdata.getLsbD 6 && s.sr.getLsbD 0) ||
      (wdata.getLsbD 5 && (s.sr.getLsbD 3 || s.sr.getLsbD 2))) ∧
    (RegInv s → wdata.getLsbD 7 = true → t.irq = true ∧
      ∀ i, i ≠ .reset → (∀ v, i ≠ .wrCr2 v) → ∃ u, exec i t = .next u ∧ u.irq = true ∧ u.cr2 = wdata ∧ RegInv u) ∧
    (wdata.getLsbD 5 = true → s.sr.getLsbD 2 = true ∨ s.sr.getLsbD 3 = true → t.irq = true) ∧
    (wdata = 0x0#32 → t.irq = false) ∧
    (∀ v u, (∀ j, 5 ≤ j → j ≤ 7 → v.getLsbD j = wdata.getLsbD j) → exec (.wrCr2 v) s = .next u → u.irq = t.irq)

/-- R72: `WR_SR`, bit by bit. Exactly the error bits written as 1 are cleared, nothing is set, every other bit and register
is as before, and `irq` is driven with the level of the new `sr`; a second identical write leaves `sr` unchanged. -/
def Obligations.WriteSrClearsExactlyTheWrittenErrorBits : Prop :=
  ∀ (s : State) (wdata : Word), ∃ t,
    decodeKey 0x100000008#33 wdata = .wrSr wdata ∧
    exec (.wrSr wdata) s = .next t ∧ t.rdata = none ∧
    t.cr1 = s.cr1 ∧ t.cr2 = s.cr2 ∧ t.dr = s.dr ∧ t.cs = s.cs ∧
    (∀ j < 32, t.sr.getLsbD j =
      if j = 2 ∨ j = 3 then (s.sr.getLsbD j && !wdata.getLsbD j) else s.sr.getLsbD j) ∧
    t.trace = s.trace ++ [.irqDrive t.irq] ∧ t.linkAnswers = s.linkAnswers ∧ t.requests = s.requests ∧
    (∃ u, exec (.wrSr wdata) t = .next u ∧ u.sr = t.sr) ∧
    (t.irq = true → s.irq = true) ∧
    (∀ line : Fin 4, t.line line = s.line line)

/-- R82, with R73 and R50: `WR_DR` with RXNE = 0. Exactly one exchange, outbound the low byte of the datum; the answer, whatever it is,
zero-extended in `dr`; RXNE and TXE set, every other bit as before; `irq` driven, and it cannot fall. That the answer is the first of a list of scheduled
bytes where there is one, and that it is then used up, is the model's form of R83's input (DESIGN CHOICE, log entry 4). -/
def Obligations.WriteDrExchangesOneByte : Prop :=
  ∀ (s : State) (wdata : Word), s.sr.getLsbD 0 = false → ∃ rx t,
    exec (.wrDr wdata) s = .next t ∧ t.rdata = none ∧
    t.cr1 = s.cr1 ∧ t.cr2 = s.cr2 ∧ t.cs = s.cs ∧ t.requests = s.requests ∧
    t.dr = BitVec.setWidth 32 rx ∧ t.sr = s.sr ||| 0x00000003#32 ∧
    t.trace = s.trace ++ [.exchange (BitVec.setWidth 8 wdata) rx, .irqDrive t.irq] ∧
    (∀ answer rest, s.linkAnswers = answer :: rest → rx = answer ∧ t.linkAnswers = rest) ∧
    (s.linkAnswers = [] → t.linkAnswers = []) ∧
    (s.irq = true → t.irq = true) ∧
    (∀ line : Fin 4, t.line line = s.line line)

/-- R81, R101: `WR_DR` with RXNE = 1. OVERRUN is set, the byte is dropped, the Serial Link is not called, `dr` and everything
else is as before; `irq` is driven. -/
def Obligations.WriteDrWhileFullOverruns : Prop :=
  ∀ (s : State) (wdata : Word), s.sr.getLsbD 0 = true → ∃ t,
    exec (.wrDr wdata) s = .next t ∧
    t = { s with sr := s.sr ||| 0x00000008#32, rdata := none, trace := s.trace ++ [.irqDrive t.irq] } ∧
    exchangesOf t.trace = exchangesOf s.trace ∧
    (s.cr2.getLsbD 5 = true → t.irq = true) ∧ (s.irq = true → t.irq = true)

/-- R81's named alternative DR_ON_OVERRUN = overwrite (decision D10): the overrun branch under it differs from the normative one in `dr`
alone, which takes the dropped byte; and the machine runs the normative one. -/
def Obligations.OverwriteAlternativeDiffersInDrAlone : Prop :=
  Config.drOnOverrun = .keep ∧
  ∀ (s : State) (tx : Byte),
    overrunBranch .overwrite tx s = { overrunBranch .keep tx s with dr := BitVec.setWidth 32 tx } ∧
    (overrunBranch .keep tx s).dr = s.dr

/-- R74: `WR_CS` stores the low byte, drives each of the four lines, in some order, with its level of the new `cs`, and changes nothing else. -/
def Obligations.WriteCsStoresAByteAndDrivesTheLines : Prop :=
  ∀ (s : State) (wdata : Word), ∃ t drives,
    decodeKey 0x100000010#33 wdata = .wrCs wdata ∧
    exec (.wrCs wdata) s = .next t ∧
    t = { s with cs := wdata &&& 0x000000FF#32, rdata := none, trace := s.trace ++ drives } ∧
    drives.Perm [.lineDrive 0 (t.line 0), .lineDrive 1 (t.line 1), .lineDrive 2 (t.line 2), .lineDrive 3 (t.line 3)] ∧
    (∀ line : Fin 4, t.line line = !(wdata.getLsbD line.val && wdata.getLsbD (line.val + 4))) ∧
    t.irq = s.irq ∧ exchangesOf t.trace = exchangesOf s.trace

/-- R75: a write at any offset but the five changes nothing; the diagnostic is optional. -/
def Obligations.UndefinedWriteChangesNothing : Prop :=
  ∀ (s : State) (offset wdata : Word),
    offset ≠ 0x00#32 → offset ≠ 0x04#32 → offset ≠ 0x08#32 → offset ≠ 0x0C#32 → offset ≠ 0x10#32 →
    decodeKey (BitVec.ofBool true ++ offset) wdata = .wrUndef offset wdata ∧
    exec (.wrUndef offset wdata) s = .next
      { s with rdata := none,
               trace := s.trace ++ (if Config.diagEnabled then [.diag .badWrite offset (some wdata)] else []) } ∧
    ∀ t, exec (.wrUndef offset wdata) s = .next t → SameRegisters s t ∧ SameOutputs s t

/-- R76: what all writes have in common: nothing is returned, every write completes, an output changes only where the rule
says so, and only an accepted `WR_DR` calls the Serial Link, exactly once. -/
def Obligations.WritesInCommon : Prop :=
  ∀ (i : Instr) (s : State), isWrite i = true → ∃ t, exec i s = .next t ∧ t.rdata = none ∧
    ((∀ w, i ≠ .wrCr1 w) → t.cr1 = s.cr1) ∧ ((∀ w, i ≠ .wrCr2 w) → t.cr2 = s.cr2) ∧
    ((∀ w, i ≠ .wrSr w ∧ i ≠ .wrDr w) → t.sr = s.sr) ∧ ((∀ w, i ≠ .wrDr w) → t.dr = s.dr) ∧
    ((∀ w, i ≠ .wrCs w) → t.cs = s.cs ∧ ∀ line : Fin 4, t.line line = s.line line) ∧
    ((∀ w, i ≠ .wrCr2 w ∧ i ≠ .wrSr w ∧ i ≠ .wrDr w) → t.irq = s.irq) ∧
    ((∀ w, i = .wrDr w → s.sr.getLsbD 0 = true) → exchangesOf t.trace = exchangesOf s.trace) ∧
    ((∃ w, i = .wrDr w) → s.sr.getLsbD 0 = false → ∃ e, exchangesOf t.trace = exchangesOf s.trace ++ [e])

/-- R48, R53 (c), R134: the bits of the datum an operation does not use make no difference at all. -/
def Obligations.UnusedDatumBitsAreIgnored : Prop :=
  ∀ (s : State) (wdata : Word),
    exec (.wrSr wdata) s = exec (.wrSr (wdata &&& 0x0000000C#32)) s ∧
    exec (.wrDr wdata) s = exec (.wrDr (wdata &&& 0x000000FF#32)) s ∧
    exec (.wrCs wdata) s = exec (.wrCs (wdata &&& 0x000000FF#32)) s

/-- The frame over the whole window, R31 and R76: after a write, every offset but the written one holds what it held, except that `WR_DR` also
changes SR; after a read, every offset but SR's after `RD_DR`. -/
def Obligations.WindowFrame : Prop :=
  ∀ (s t : State) (i : Instr) (w offset : Word), exec i s = .next t →
    (i = .wrCr1 w → offset ≠ 0x00#32 → t.window offset = s.window offset) ∧
    (i = .wrCr2 w → offset ≠ 0x04#32 → t.window offset = s.window offset) ∧
    (i = .wrSr w → offset ≠ 0x08#32 → t.window offset = s.window offset) ∧
    (i = .wrDr w → offset ≠ 0x0C#32 → offset ≠ 0x08#32 → t.window offset = s.window offset) ∧
    (i = .wrCs w → offset ≠ 0x10#32 → t.window offset = s.window offset) ∧
    (i = .rdDr → offset ≠ 0x08#32 → t.window offset = s.window offset) ∧
    (i = .rdCr1 ∨ i = .rdCr2 ∨ i = .rdSr ∨ i = .rdCs → t.window offset = s.window offset) ∧
    ((∃ o, i = .rdUndef o ∨ i = .wrUndef o w) → t.window offset = s.window offset)

/-- R36: which accesses are idempotent, and that the two of DR are not. -/
def Obligations.IdempotencyOfEachAccess : Prop :=
  ∀ s : State,
    (∀ (i : Instr) (t : State), isRead i = true → i ≠ .rdDr → exec i s = .next t →
      ∃ u, exec i t = .next u ∧ u.rdata = t.rdata ∧ SameRegisters s t ∧ SameRegisters t u) ∧
    (∀ (i : Instr) (t : State), isWrite i = true → (∀ w, i ≠ .wrDr w) → exec i s = .next t →
      ∃ u, exec i t = .next u ∧ SameRegisters t u) ∧
    (∀ (o w : Word) (t : State), exec (.wrUndef o w) s = .next t → SameRegisters s t) ∧
    (∀ t, exec .rdDr s = .next t → ∃ u, exec .rdDr t = .next u ∧ u.rdata = t.rdata ∧
      srUnderrun u.sr = true ∧ (s.sr.getLsbD 0 = true → srUnderrun s.sr = false → srUnderrun t.sr = false)) ∧
    (∀ (w v : Word) (t : State), exec (.wrDr w) s = .next t → ∃ u, exec (.wrDr v) t = .next u ∧ srOverrun u.sr = true ∧
      u.dr = t.dr ∧ exchangesOf u.trace = exchangesOf t.trace)

/-! ## The control state machine -/

/-- R16, R17, R18, R19, R20: the next value of each bit of `sr`, for every operation and every state: who sets it, who clears it,
and nobody else. -/
def Obligations.StatusBitsChangeOnlyAsStated : Prop :=
  ∀ (i : Instr) (s : State), ∃ t, exec i s = .next t ∧
    srRxne t.sr = (match i with
      | .rdDr => false | .wrDr _ => true | .reset => false | _ => srRxne s.sr) ∧
    srTxe t.sr = (match i with
      | .wrDr _ => srTxe s.sr || !srRxne s.sr | .reset => true | _ => srTxe s.sr) ∧
    srUnderrun t.sr = (match i with
      | .rdDr => srUnderrun s.sr || !srRxne s.sr | .wrSr w => srUnderrun s.sr && !w.getLsbD 2
      | .reset => false | _ => srUnderrun s.sr) ∧
    srOverrun t.sr = (match i with
      | .wrDr _ => srOverrun s.sr || srRxne s.sr | .wrSr w => srOverrun s.sr && !w.getLsbD 3
      | .reset => false | _ => srOverrun s.sr) ∧
    (∀ j, 4 ≤ j → t.sr.getLsbD j = match i with | .reset => false | _ => s.sr.getLsbD j)

/-- R85: the transition table over the eight reachable values of `sr`, row by row (`sr`, then the next `sr` after `RD_DR`,
after `WR_DR`, and after `WR_SR` with wdata[3:2] = 01, 10, 11), with what happens to `dr` and the link; every operation
not listed leaves `sr` unchanged, and `RESET` leads to 0x2 and `dr` = 0x0C from every state. -/
def Obligations.StatusTransitionTable : Prop :=
  (∀ row ∈ ([(0x2, 0x6, 0x3, 0x2, 0x2, 0x2), (0x3, 0x2, 0xB, 0x3, 0x3, 0x3), (0x6, 0x6, 0x7, 0x2, 0x6, 0x2),
             (0x7, 0x6, 0xF, 0x3, 0x7, 0x3), (0xA, 0xE, 0xB, 0xA, 0x2, 0x2), (0xB, 0xA, 0xB, 0xB, 0x3, 0x3),
             (0xE, 0xE, 0xF, 0xA, 0x6, 0x2), (0xF, 0xE, 0xF, 0xB, 0x7, 0x3)] :
             List (Word × Word × Word × Word × Word × Word)),
    ∀ s : State, s.sr = row.1 →
      (∃ t, exec .rdDr s = .next t ∧ t.sr = row.2.1 ∧ t.dr = s.dr ∧ exchangesOf t.trace = exchangesOf s.trace) ∧
      (∀ w, ∃ t, exec (.wrDr w) s = .next t ∧ t.sr = row.2.2.1 ∧
        (s.sr.getLsbD 0 = true → t.dr = s.dr ∧ exchangesOf t.trace = exchangesOf s.trace) ∧
        (s.sr.getLsbD 0 = false → ∃ rx, t.dr = BitVec.setWidth 32 rx ∧
          exchangesOf t.trace = exchangesOf s.trace ++ [(BitVec.setWidth 8 w, rx)])) ∧
      (∀ w : Word, ∃ t, exec (.wrSr w) s = .next t ∧ t.dr = s.dr ∧ exchangesOf t.trace = exchangesOf s.trace ∧
        (w.extractLsb' 2 2 = 0b01#2 → t.sr = row.2.2.2.1) ∧ (w.extractLsb' 2 2 = 0b10#2 → t.sr = row.2.2.2.2.1) ∧
        (w.extractLsb' 2 2 = 0b11#2 → t.sr = row.2.2.2.2.2) ∧ (w.extractLsb' 2 2 = 0b00#2 → t.sr = s.sr))) ∧
  (∀ (i : Instr) (s t : State), exec i s = .next t → i ≠ .reset → i ≠ .rdDr → (∀ w, i ≠ .wrDr w ∧ i ≠ .wrSr w) →
    t.sr = s.sr ∧ t.dr = s.dr ∧ exchangesOf t.trace = exchangesOf s.trace) ∧
  (∀ s : State, ∃ t, exec .reset s = .next t ∧ t.sr = 0x2#32 ∧ t.dr = 0x0C#32 ∧
    exchangesOf t.trace = exchangesOf s.trace)

/-- R80: what triggers an exchange. A `WR_DR` with RXNE = 0 makes exactly one, of the low byte of its datum; no other operation, and no
`WR_DR` with RXNE = 1, makes one; nothing but RXNE is tested. -/
def Obligations.ExchangesAreTriggeredByAcceptedDrWritesAlone : Prop :=
  ∀ (i : Instr) (s : State), ∃ t, exec i s = .next t ∧
    (∀ w, i = .wrDr w → s.sr.getLsbD 0 = false →
      ∃ rx, exchangesOf t.trace = exchangesOf s.trace ++ [(BitVec.setWidth 8 w, rx)] ∧ t.dr = BitVec.setWidth 32 rx) ∧
    ((∀ w, i = .wrDr w → s.sr.getLsbD 0 = true) →
      exchangesOf t.trace = exchangesOf s.trace ∧ t.linkAnswers = s.linkAnswers)

/-- R22: the invariant of reachable states, kept by every step from every state that meets it, whatever the requests. -/
def Obligations.EveryStepKeepsTheInvariant : Prop :=
  ∀ s t : State, RegInv s → step s = .next t → RegInv t

/-- R22 with R26: the state right after reset meets the invariant, and so does the state after a reset from any state. -/
def Obligations.ResetMeetsTheInvariant : Prop :=
  RegInv State.reset ∧ ∀ s t : State, exec .reset s = .next t → RegInv t

/-- R22 (b): in every reachable state `sr` is one of the eight values, and all eight are reached. -/
def Obligations.ReachableStatusValues : Prop :=
  (∀ s, Reachable s → s.sr ∈ reachableStatus) ∧
  (∀ v ∈ reachableStatus, ∃ s, Reachable s ∧ s.sr = v)

/-- R101, R102 and R109: an operation raises at most one of the two error conditions; OVERRUN is newly set only by a `WR_DR` with RXNE = 1 and
UNDERRUN only by an `RD_DR` with RXNE = 0. -/
def Obligations.OneOperationRaisesAtMostOneError : Prop :=
  ∀ (i : Instr) (s t : State), exec i s = .next t →
    (srOverrun s.sr = false → srOverrun t.sr = true → (∃ w, i = .wrDr w) ∧ srRxne s.sr = true) ∧
    (srUnderrun s.sr = false → srUnderrun t.sr = true → i = .rdDr ∧ srRxne s.sr = false) ∧
    ¬ (srOverrun s.sr = false ∧ srOverrun t.sr = true ∧ srUnderrun s.sr = false ∧ srUnderrun t.sr = true)

/-- R126: write-only use of the block transmits only the first byte. However many bytes are written after an accepted one
without reading DR, they are dropped, and OVERRUN says so. -/
def Obligations.WithoutReadingOnlyTheFirstByteIsSent : Prop :=
  ∀ (s : State) (first : Word) (later : List Word), s.sr.getLsbD 0 = false →
    ∃ t rx, execAll ((first :: later).map Instr.wrDr) s = .next t ∧
      exchangesOf t.trace = exchangesOf s.trace ++ [(BitVec.setWidth 8 first, rx)] ∧ t.dr = BitVec.setWidth 32 rx ∧
      (later ≠ [] → srOverrun t.sr = true)

/-- R128: recovering from an overrun takes `RD_DR` and `WR_SR` 0x8, in either order; after both the next `WR_DR` exchanges. Clearing OVERRUN alone
leaves RXNE set, so the next `WR_DR` overruns again; reading DR alone leaves OVERRUN set. Reading SR clears nothing. -/
def Obligations.OverrunRecovery : Prop :=
  ∀ (s : State) (w : Word), srRxne s.sr = true → srOverrun s.sr = true →
    (∃ t, execAll [.rdDr, .wrSr 0x8#32] s = .next t ∧ srRxne t.sr = false ∧ srOverrun t.sr = false) ∧
    (∃ t, execAll [.wrSr 0x8#32, .rdDr] s = .next t ∧ t.rdata = some s.dr ∧
      srRxne t.sr = false ∧ srOverrun t.sr = false) ∧
    (∃ t, execAll [.rdDr, .wrSr 0x8#32, .wrDr w] s = .next t ∧ srOverrun t.sr = false ∧
      ∃ e, exchangesOf t.trace = exchangesOf s.trace ++ [e]) ∧
    (∃ t, execAll [.wrSr 0x8#32, .wrDr w] s = .next t ∧ srOverrun t.sr = true ∧ t.dr = s.dr ∧
      exchangesOf t.trace = exchangesOf s.trace) ∧
    (∃ t, execAll [.rdDr] s = .next t ∧ t.rdata = some s.dr ∧ srRxne t.sr = false ∧ srOverrun t.sr = true ∧
      (cr2Errie s.cr2 = true → t.irq = true)) ∧
    (∃ t, execAll [.rdDr, .wrDr w] s = .next t ∧ ∃ e, exchangesOf t.trace = exchangesOf s.trace ++ [e]) ∧
    (∃ t, execAll [.rdSr] s = .next t ∧ t.sr = s.sr)

/-! ## What nothing depends on -/

/-- R13, R131: no operation reads CR1 but `RD_CR1`: with any other value in CR1, SPE and MSTR among it, every operation does the same to
everything but CR1. -/
def Obligations.Cr1HasNoEffect : Prop :=
  ∀ (i : Instr) (s : State) (v : Word), ∃ t t', exec i s = .next t ∧ exec i { s with cr1 := v } = .next t' ∧
    t'.cr2 = t.cr2 ∧ t'.sr = t.sr ∧ t'.dr = t.dr ∧ t'.cs = t.cs ∧ t'.trace = t.trace ∧
    t'.linkAnswers = t.linkAnswers ∧ t'.requests = t.requests ∧ SameOutputs t t' ∧ (i ≠ .rdCr1 → t'.rdata = t.rdata)

/-- R104: the two error flags gate nothing. With any other values of them every operation behaves as before, `RD_SR`'s
value and the level `irq` apart. -/
def Obligations.ErrorFlagsGateNothing : Prop :=
  ∀ (i : Instr) (s : State) (m : Word), ∃ t t', exec i s = .next t ∧
    exec i { s with sr := (s.sr &&& 0xFFFFFFF3#32) ||| (m &&& 0x0000000C#32) } = .next t' ∧
    t'.cr1 = t.cr1 ∧ t'.cr2 = t.cr2 ∧ t'.dr = t.dr ∧ t'.cs = t.cs ∧ t'.linkAnswers = t.linkAnswers ∧
    (∀ j < 32, j ≠ 2 → j ≠ 3 → t'.sr.getLsbD j = t.sr.getLsbD j) ∧
    exchangesOf t'.trace = exchangesOf t.trace ∧ lineDrivesOf t'.trace = lineDrivesOf t.trace ∧
    (∀ line : Fin 4, t'.line line = t.line line) ∧ (i ≠ .rdSr → t'.rdata = t.rdata)

/-- R94: the decoder and the Transfer do not know of each other. A `WR_CS` touches neither `sr` nor `dr` and makes no
exchange; a `WR_DR` is accepted or dropped, and sends the same byte, whatever `cs` holds; what it then receives is the same where the answer is
scheduled (the schedule is log entry 4's DESIGN CHOICE), while the Serial Link itself may look at the levels (R83). -/
def Obligations.ChipSelectAndDataPathAreIndependent : Prop :=
  ∀ (s : State) (w c : Word),
    (∃ t, exec (.wrCs c) s = .next t ∧ t.sr = s.sr ∧ t.dr = s.dr ∧ exchangesOf t.trace = exchangesOf s.trace ∧
      t.linkAnswers = s.linkAnswers) ∧
    (∃ t t', exec (.wrDr w) s = .next t ∧ exec (.wrDr w) { s with cs := c } = .next t' ∧ t'.sr = t.sr ∧ t'.cs = c ∧
      (s.linkAnswers ≠ [] → t'.dr = t.dr) ∧ t'.irq = t.irq ∧ lineDrivesOf t'.trace = lineDrivesOf s.trace ∧
      (exchangesOf t'.trace).map Prod.fst = (exchangesOf t.trace).map Prod.fst)

/-- R83: the Serial Link may answer any byte: for every byte there is an answer schedule under which the exchange leaves
that byte in `dr`, and whether the block has a step does not depend on it. -/
def Obligations.EveryAnswerOfTheLinkIsAdmitted : Prop :=
  ∀ (s : State) (w : Word) (answers : List Byte), ∃ t, exec (.wrDr w) { s with linkAnswers := answers } = .next t ∧
    (s.sr.getLsbD 0 = false → ∀ rx rest, answers = rx :: rest → t.dr = BitVec.setWidth 32 rx ∧ t.linkAnswers = rest) ∧
    (s.sr.getLsbD 0 = true → t.dr = s.dr ∧ t.linkAnswers = answers)

/-! ## Outputs -/

/-- R105, R108: the level `irq` in every state is the entry of the truth table (one row of sixteen columns for each value
of `cr2[7:5]`, bit n the column `sr[3:0]` = n): a function of those seven bits and of nothing else. -/
def Obligations.IrqIsTheTruthTable : Prop :=
  ∀ s : State, s.irq =
    (match (s.cr2.extractLsb' 5 3).toNat with
      | 0 => 0x0000#16 | 1 => 0xFFF0#16 | 2 => 0xAAAA#16 | 3 => 0xFFFA#16
      | 4 => 0xCCCC#16 | 5 => 0xFFFC#16 | 6 => 0xEEEE#16 | _ => 0xFFFE#16).getLsbD (s.sr.extractLsb' 0 4).toNat

/-- R107: when the level can change, and the drive events. Only `WR_CR2`, `WR_SR`, `RD_DR`, `WR_DR` and `RESET` can change `irq`, for only they change `cr2`
or `sr`; `WR_SR` can only lower it, `RD_DR` raises it only by underrun and lowers it only by consuming, `WR_DR` never lowers it, `RESET` leaves it 0; each of the first four drives it once with the level it then has, and no other operation drives it. -/
def Obligations.IrqChangesOnlyAsStated : Prop :=
  ∀ (i : Instr) (s : State), ∃ t, exec i s = .next t ∧
    (match i with
      | .wrCr2 _ => irqDrivesOf t.trace = irqDrivesOf s.trace ++ [t.irq]
      | .wrSr _ => irqDrivesOf t.trace = irqDrivesOf s.trace ++ [t.irq] ∧ (t.irq = true → s.irq = true)
      | .rdDr => irqDrivesOf t.trace = irqDrivesOf s.trace ++ [t.irq] ∧
          (srRxne s.sr = false → s.irq = true → t.irq = true) ∧ (srRxne s.sr = true → t.irq = true → s.irq = true)
      | .wrDr _ => irqDrivesOf t.trace = irqDrivesOf s.trace ++ [t.irq] ∧ (s.irq = true → t.irq = true)
      | .reset => irqDrivesOf t.trace = irqDrivesOf s.trace ∧ t.irq = false
      | _ => irqDrivesOf t.trace = irqDrivesOf s.trace ∧ t.irq = s.irq ∧ t.cr2 = s.cr2 ∧ t.sr = s.sr)

/-- R129: with TXEIE set in a reachable state the line is 1, and it stays 1 through every operation but a `WR_CR2` and a `RESET`. -/
def Obligations.TxeieHoldsTheLine : Prop :=
  ∀ s : State, RegInv s → cr2Txeie s.cr2 = true → s.irq = true ∧
    ∀ i, i ≠ .reset → (∀ w, i ≠ .wrCr2 w) → ∃ t, exec i s = .next t ∧ t.irq = true ∧ cr2Txeie t.cr2 = true

/-- R135: every source is a level that persists until its cause is removed. An error flag raised while ERRIE = 0 raises the line when ERRIE is set; with both
flags set and ERRIE = 1, clearing only one leaves it at 1; an RXNE interrupt is dismissed by `RD_DR`. -/
def Obligations.InterruptCausesAreLevels : Prop :=
  ∀ (s : State) (w : Word),
    (srOverrun s.sr = true ∨ srUnderrun s.sr = true → cr2Errie w = true →
      ∃ t, exec (.wrCr2 w) s = .next t ∧ t.irq = true) ∧
    (srOverrun s.sr = true → srUnderrun s.sr = true → cr2Errie s.cr2 = true → ¬ (w.getLsbD 2 = true ∧ w.getLsbD 3 = true) →
      ∃ t, exec (.wrSr w) s = .next t ∧ t.irq = true) ∧
    (cr2Rxneie s.cr2 = true → srRxne s.sr = true → cr2Txeie s.cr2 = false → cr2Errie s.cr2 = false →
      s.irq = true ∧ ∃ t, exec .rdDr s = .next t ∧ t.irq = false)

/-- R90, R92, R93: the four lines in every state. As a nibble they are `~(cs[3:0] & cs[7:4]) & 0xF`; line by line the truth table; a line whose selector
is 0 is at 1, enabled or not; after reset every line is at 1; and after `WR_CS` of any byte each line matches that byte. -/
def Obligations.LinesAreTheDecoderOfCs : Prop :=
  ∀ (s : State) (line : Fin 4),
    s.line line = (~~~(s.cs.extractLsb' 0 4 &&& s.cs.extractLsb' 4 4)).getLsbD line.val ∧
    (s.line line = false ↔ s.cs.getLsbD line.val = true ∧ s.cs.getLsbD (line.val + 4) = true) ∧
    (s.cs.getLsbD (line.val + 4) = false → s.line line = true) ∧
    (∃ t, exec .reset s = .next t ∧ t.line line = true) ∧
    (∀ b : Byte, ∃ t, exec (.wrCs (BitVec.setWidth 32 b)) s = .next t ∧
      (t.line line = false ↔ b.getLsbD line.val = true ∧ b.getLsbD (line.val + 4) = true))

/-- R91: when the lines are driven. A `WR_CS` or a `RESET` drives all four, changed or not, with the levels they then have, in some
order; no other operation drives or changes one, or changes `cs`. -/
def Obligations.LinesAreDrivenByCsWritesAndResetAlone : Prop :=
  ∀ (i : Instr) (s : State), ∃ t, exec i s = .next t ∧
    (match i with
      | .wrCs _ | .reset => ∃ drives, lineDrivesOf t.trace = lineDrivesOf s.trace ++ drives ∧
          drives.Perm [(0, t.line 0), (1, t.line 1), (2, t.line 2), (3, t.line 3)]
      | _ => lineDrivesOf t.trace = lineDrivesOf s.trace ∧ t.cs = s.cs ∧ ∀ line : Fin 4, t.line line = s.line line)

/-- R24, R91: the pushed view of the lines (the level each was last driven with) agrees with the function of `cs`, an
invariant that every step keeps; the state right after reset has it, because the pushed level of a line before any drive is taken as 1 (DESIGN
CHOICE, log entry 9). -/
def Obligations.PushedLineLevelsStayCurrent : Prop :=
  PushedLinesAgree State.reset ∧ ∀ s t : State, PushedLinesAgree s → step s = .next t → PushedLinesAgree t

/-- R24, R107, and conflict C2 (R121): the pushed view of `irq` agrees with the function of `cr2` and `sr`, an invariant that every operation but
`RESET` keeps, and that the state right after reset has because the pushed level before any drive is taken as 0 (DESIGN CHOICE, log entry 9, whose
losing reading `irqOutput true` also is); after a `RESET` taken while the line was pushed to 1 the pushed level is the losing reading's, still 1, where `irq` is 0. -/
def Obligations.PushedIrqLevelStaysCurrentExceptAcrossReset : Prop :=
  PushedIrqAgrees State.reset ∧
  (∀ (i : Instr) (s : State), i ≠ .reset → PushedIrqAgrees s → ∃ t, exec i s = .next t ∧ PushedIrqAgrees t) ∧
  (∀ s : State, ∃ t, exec .reset s = .next t ∧ lastIrqDrive t.trace = lastIrqDrive s.trace ∧
    irqOutput true t = lastIrqDrive s.trace ∧ irqOutput false t = false ∧ t.irq = irqOutput false t)

/-- R139: a harness's restore sets the five fields and does nothing else; save and restore round-trip all five exactly; the outputs follow the
restored fields; nothing is sent out. -/
def Obligations.SnapshotRoundTrip : Prop :=
  ∀ (s : State) (p : Snapshot),
    (s.restore p).save = p ∧ s.restore s.save = s ∧
    (s.restore p).trace = s.trace ∧ (s.restore p).linkAnswers = s.linkAnswers ∧ (s.restore p).rdata = s.rdata ∧
    (s.restore p).requests = s.requests ∧
    (s.restore p).irq = ((p.cr2.getLsbD 7 && p.sr.getLsbD 1) || (p.cr2.getLsbD 6 && p.sr.getLsbD 0) ||
      (p.cr2.getLsbD 5 && (p.sr.getLsbD 3 || p.sr.getLsbD 2))) ∧
    ∀ line : Fin 4, (s.restore p).line line = !(p.cs.getLsbD line.val && p.cs.getLsbD (line.val + 4))

/-- R103, R8 DIAG, R115: diagnostic reports affect nothing. Two states that differ in diagnostic reports alone, any number of them anywhere in
the past, stay so under every operation: the same registers, outputs, answers to the host and answers of the Serial Link, the free ones among them. -/
def Obligations.DiagnosticsAffectNothing : Prop :=
  ∀ (i : Instr) (s : State) (past : List Event), observedHistory past = observedHistory s.trace →
    ∃ t t', exec i s = .next t ∧ exec i { s with trace := past } = .next t' ∧
      t' = { t with trace := t'.trace } ∧ observedHistory t'.trace = observedHistory t.trace ∧ SameOutputs t t'
end

