-- ==== Sys2Proof/Laws/State.lean ====
section
/-! SUPPORT. One lemma per field per named update of the state, true by rfl, so that no proof unfolds an update. -/

namespace Sys2Proof.Machine

variable (s : State)

/-! ## `put_cr1` -/

@[simp] theorem State.put_cr1_cr1 (v : Word) : (s.put .cr1 v).cr1 = v := rfl
@[simp] theorem State.put_cr1_cr2 (v : Word) : (s.put .cr1 v).cr2 = s.cr2 := rfl
@[simp] theorem State.put_cr1_sr (v : Word) : (s.put .cr1 v).sr = s.sr := rfl
@[simp] theorem State.put_cr1_dr (v : Word) : (s.put .cr1 v).dr = s.dr := rfl
@[simp] theorem State.put_cr1_cs (v : Word) : (s.put .cr1 v).cs = s.cs := rfl
@[simp] theorem State.put_cr1_requests (v : Word) : (s.put .cr1 v).requests = s.requests := rfl
@[simp] theorem State.put_cr1_rdata (v : Word) : (s.put .cr1 v).rdata = s.rdata := rfl
@[simp] theorem State.put_cr1_linkAnswers (v : Word) : (s.put .cr1 v).linkAnswers = s.linkAnswers := rfl
@[simp] theorem State.put_cr1_trace (v : Word) : (s.put .cr1 v).trace = s.trace := rfl

/-! ## `put_cr2` -/

@[simp] theorem State.put_cr2_cr1 (v : Word) : (s.put .cr2 v).cr1 = s.cr1 := rfl
@[simp] theorem State.put_cr2_cr2 (v : Word) : (s.put .cr2 v).cr2 = v := rfl
@[simp] theorem State.put_cr2_sr (v : Word) : (s.put .cr2 v).sr = s.sr := rfl
@[simp] theorem State.put_cr2_dr (v : Word) : (s.put .cr2 v).dr = s.dr := rfl
@[simp] theorem State.put_cr2_cs (v : Word) : (s.put .cr2 v).cs = s.cs := rfl
@[simp] theorem State.put_cr2_requests (v : Word) : (s.put .cr2 v).requests = s.requests := rfl
@[simp] theorem State.put_cr2_rdata (v : Word) : (s.put .cr2 v).rdata = s.rdata := rfl
@[simp] theorem State.put_cr2_linkAnswers (v : Word) : (s.put .cr2 v).linkAnswers = s.linkAnswers := rfl
@[simp] theorem State.put_cr2_trace (v : Word) : (s.put .cr2 v).trace = s.trace := rfl

/-! ## `put_sr` -/

@[simp] theorem State.put_sr_cr1 (v : Word) : (s.put .sr v).cr1 = s.cr1 := rfl
@[simp] theorem State.put_sr_cr2 (v : Word) : (s.put .sr v).cr2 = s.cr2 := rfl
@[simp] theorem State.put_sr_sr (v : Word) : (s.put .sr v).sr = v := rfl
@[simp] theorem State.put_sr_dr (v : Word) : (s.put .sr v).dr = s.dr := rfl
@[simp] theorem State.put_sr_cs (v : Word) : (s.put .sr v).cs = s.cs := rfl
@[simp] theorem State.put_sr_requests (v : Word) : (s.put .sr v).requests = s.requests := rfl
@[simp] theorem State.put_sr_rdata (v : Word) : (s.put .sr v).rdata = s.rdata := rfl
@[simp] theorem State.put_sr_linkAnswers (v : Word) : (s.put .sr v).linkAnswers = s.linkAnswers := rfl
@[simp] theorem State.put_sr_trace (v : Word) : (s.put .sr v).trace = s.trace := rfl

/-! ## `put_dr` -/

@[simp] theorem State.put_dr_cr1 (v : Word) : (s.put .dr v).cr1 = s.cr1 := rfl
@[simp] theorem State.put_dr_cr2 (v : Word) : (s.put .dr v).cr2 = s.cr2 := rfl
@[simp] theorem State.put_dr_sr (v : Word) : (s.put .dr v).sr = s.sr := rfl
@[simp] theorem State.put_dr_dr (v : Word) : (s.put .dr v).dr = v := rfl
@[simp] theorem State.put_dr_cs (v : Word) : (s.put .dr v).cs = s.cs := rfl
@[simp] theorem State.put_dr_requests (v : Word) : (s.put .dr v).requests = s.requests := rfl
@[simp] theorem State.put_dr_rdata (v : Word) : (s.put .dr v).rdata = s.rdata := rfl
@[simp] theorem State.put_dr_linkAnswers (v : Word) : (s.put .dr v).linkAnswers = s.linkAnswers := rfl
@[simp] theorem State.put_dr_trace (v : Word) : (s.put .dr v).trace = s.trace := rfl

/-! ## `put_cs` -/

@[simp] theorem State.put_cs_cr1 (v : Word) : (s.put .cs v).cr1 = s.cr1 := rfl
@[simp] theorem State.put_cs_cr2 (v : Word) : (s.put .cs v).cr2 = s.cr2 := rfl
@[simp] theorem State.put_cs_sr (v : Word) : (s.put .cs v).sr = s.sr := rfl
@[simp] theorem State.put_cs_dr (v : Word) : (s.put .cs v).dr = s.dr := rfl
@[simp] theorem State.put_cs_cs (v : Word) : (s.put .cs v).cs = v := rfl
@[simp] theorem State.put_cs_requests (v : Word) : (s.put .cs v).requests = s.requests := rfl
@[simp] theorem State.put_cs_rdata (v : Word) : (s.put .cs v).rdata = s.rdata := rfl
@[simp] theorem State.put_cs_linkAnswers (v : Word) : (s.put .cs v).linkAnswers = s.linkAnswers := rfl
@[simp] theorem State.put_cs_trace (v : Word) : (s.put .cs v).trace = s.trace := rfl

/-! ## `answer` -/

@[simp] theorem State.answer_cr1 (v : Word) : (s.answer v).cr1 = s.cr1 := rfl
@[simp] theorem State.answer_cr2 (v : Word) : (s.answer v).cr2 = s.cr2 := rfl
@[simp] theorem State.answer_sr (v : Word) : (s.answer v).sr = s.sr := rfl
@[simp] theorem State.answer_dr (v : Word) : (s.answer v).dr = s.dr := rfl
@[simp] theorem State.answer_cs (v : Word) : (s.answer v).cs = s.cs := rfl
@[simp] theorem State.answer_requests (v : Word) : (s.answer v).requests = s.requests := rfl
@[simp] theorem State.answer_rdata (v : Word) : (s.answer v).rdata = some v := rfl
@[simp] theorem State.answer_linkAnswers (v : Word) : (s.answer v).linkAnswers = s.linkAnswers := rfl
@[simp] theorem State.answer_trace (v : Word) : (s.answer v).trace = s.trace := rfl

/-! ## `answerNothing` -/

@[simp] theorem State.answerNothing_cr1 : (s.answerNothing).cr1 = s.cr1 := rfl
@[simp] theorem State.answerNothing_cr2 : (s.answerNothing).cr2 = s.cr2 := rfl
@[simp] theorem State.answerNothing_sr : (s.answerNothing).sr = s.sr := rfl
@[simp] theorem State.answerNothing_dr : (s.answerNothing).dr = s.dr := rfl
@[simp] theorem State.answerNothing_cs : (s.answerNothing).cs = s.cs := rfl
@[simp] theorem State.answerNothing_requests : (s.answerNothing).requests = s.requests := rfl
@[simp] theorem State.answerNothing_rdata : (s.answerNothing).rdata = none := rfl
@[simp] theorem State.answerNothing_linkAnswers : (s.answerNothing).linkAnswers = s.linkAnswers := rfl
@[simp] theorem State.answerNothing_trace : (s.answerNothing).trace = s.trace := rfl

/-! ## `emit` -/

@[simp] theorem State.emit_cr1 (es : List Event) : (s.emit es).cr1 = s.cr1 := rfl
@[simp] theorem State.emit_cr2 (es : List Event) : (s.emit es).cr2 = s.cr2 := rfl
@[simp] theorem State.emit_sr (es : List Event) : (s.emit es).sr = s.sr := rfl
@[simp] theorem State.emit_dr (es : List Event) : (s.emit es).dr = s.dr := rfl
@[simp] theorem State.emit_cs (es : List Event) : (s.emit es).cs = s.cs := rfl
@[simp] theorem State.emit_requests (es : List Event) : (s.emit es).requests = s.requests := rfl
@[simp] theorem State.emit_rdata (es : List Event) : (s.emit es).rdata = s.rdata := rfl
@[simp] theorem State.emit_linkAnswers (es : List Event) : (s.emit es).linkAnswers = s.linkAnswers := rfl
@[simp] theorem State.emit_trace (es : List Event) : (s.emit es).trace = s.trace ++ es := rfl

/-! ## `driveIrq` -/

@[simp] theorem State.driveIrq_cr1 : (s.driveIrq).cr1 = s.cr1 := rfl
@[simp] theorem State.driveIrq_cr2 : (s.driveIrq).cr2 = s.cr2 := rfl
@[simp] theorem State.driveIrq_sr : (s.driveIrq).sr = s.sr := rfl
@[simp] theorem State.driveIrq_dr : (s.driveIrq).dr = s.dr := rfl
@[simp] theorem State.driveIrq_cs : (s.driveIrq).cs = s.cs := rfl
@[simp] theorem State.driveIrq_requests : (s.driveIrq).requests = s.requests := rfl
@[simp] theorem State.driveIrq_rdata : (s.driveIrq).rdata = s.rdata := rfl
@[simp] theorem State.driveIrq_linkAnswers : (s.driveIrq).linkAnswers = s.linkAnswers := rfl
@[simp] theorem State.driveIrq_trace : (s.driveIrq).trace = s.trace ++ [.irqDrive (irqLevel s.cr2 s.sr)] := rfl

/-! ## `driveLines` -/

@[simp] theorem State.driveLines_cr1 : (s.driveLines).cr1 = s.cr1 := rfl
@[simp] theorem State.driveLines_cr2 : (s.driveLines).cr2 = s.cr2 := rfl
@[simp] theorem State.driveLines_sr : (s.driveLines).sr = s.sr := rfl
@[simp] theorem State.driveLines_dr : (s.driveLines).dr = s.dr := rfl
@[simp] theorem State.driveLines_cs : (s.driveLines).cs = s.cs := rfl
@[simp] theorem State.driveLines_requests : (s.driveLines).requests = s.requests := rfl
@[simp] theorem State.driveLines_rdata : (s.driveLines).rdata = s.rdata := rfl
@[simp] theorem State.driveLines_linkAnswers : (s.driveLines).linkAnswers = s.linkAnswers := rfl
@[simp] theorem State.driveLines_trace : (s.driveLines).trace = s.trace ++ [.lineDrive 0 (csLevel s.cs 0), .lineDrive 1 (csLevel s.cs 1),
   .lineDrive 2 (csLevel s.cs 2), .lineDrive 3 (csLevel s.cs 3)] := rfl

/-! ## `report` -/

@[simp] theorem State.report_cr1 (k : DiagKind) (o : Word) (d : Option Word) : (s.report k o d).cr1 = s.cr1 := rfl
@[simp] theorem State.report_cr2 (k : DiagKind) (o : Word) (d : Option Word) : (s.report k o d).cr2 = s.cr2 := rfl
@[simp] theorem State.report_sr (k : DiagKind) (o : Word) (d : Option Word) : (s.report k o d).sr = s.sr := rfl
@[simp] theorem State.report_dr (k : DiagKind) (o : Word) (d : Option Word) : (s.report k o d).dr = s.dr := rfl
@[simp] theorem State.report_cs (k : DiagKind) (o : Word) (d : Option Word) : (s.report k o d).cs = s.cs := rfl
@[simp] theorem State.report_requests (k : DiagKind) (o : Word) (d : Option Word) : (s.report k o d).requests = s.requests := rfl
@[simp] theorem State.report_rdata (k : DiagKind) (o : Word) (d : Option Word) : (s.report k o d).rdata = s.rdata := rfl
@[simp] theorem State.report_linkAnswers (k : DiagKind) (o : Word) (d : Option Word) : (s.report k o d).linkAnswers = s.linkAnswers := rfl
@[simp] theorem State.report_trace (k : DiagKind) (o : Word) (d : Option Word) : (s.report k o d).trace = s.trace ++ (if Config.diagEnabled then [.diag k o d] else []) := rfl

/-! ## `raiseError` -/

@[simp] theorem State.raiseError_cr1 (e : ErrorFlag) : (s.raiseError e).cr1 = s.cr1 := rfl
@[simp] theorem State.raiseError_cr2 (e : ErrorFlag) : (s.raiseError e).cr2 = s.cr2 := rfl
@[simp] theorem State.raiseError_sr (e : ErrorFlag) : (s.raiseError e).sr = setBits s.sr (errorMask e) := rfl
@[simp] theorem State.raiseError_dr (e : ErrorFlag) : (s.raiseError e).dr = s.dr := rfl
@[simp] theorem State.raiseError_cs (e : ErrorFlag) : (s.raiseError e).cs = s.cs := rfl
@[simp] theorem State.raiseError_requests (e : ErrorFlag) : (s.raiseError e).requests = s.requests := rfl
@[simp] theorem State.raiseError_rdata (e : ErrorFlag) : (s.raiseError e).rdata = s.rdata := rfl
@[simp] theorem State.raiseError_linkAnswers (e : ErrorFlag) : (s.raiseError e).linkAnswers = s.linkAnswers := rfl
@[simp] theorem State.raiseError_trace (e : ErrorFlag) : (s.raiseError e).trace = s.trace := rfl

/-! ## `clearErrors` -/

@[simp] theorem State.clearErrors_cr1 (w : Word) : (s.clearErrors w).cr1 = s.cr1 := rfl
@[simp] theorem State.clearErrors_cr2 (w : Word) : (s.clearErrors w).cr2 = s.cr2 := rfl
@[simp] theorem State.clearErrors_sr (w : Word) : (s.clearErrors w).sr = clearBits s.sr (srClearMask w) := rfl
@[simp] theorem State.clearErrors_dr (w : Word) : (s.clearErrors w).dr = s.dr := rfl
@[simp] theorem State.clearErrors_cs (w : Word) : (s.clearErrors w).cs = s.cs := rfl
@[simp] theorem State.clearErrors_requests (w : Word) : (s.clearErrors w).requests = s.requests := rfl
@[simp] theorem State.clearErrors_rdata (w : Word) : (s.clearErrors w).rdata = s.rdata := rfl
@[simp] theorem State.clearErrors_linkAnswers (w : Word) : (s.clearErrors w).linkAnswers = s.linkAnswers := rfl
@[simp] theorem State.clearErrors_trace (w : Word) : (s.clearErrors w).trace = s.trace := rfl

/-! ## `exchanged` -/

@[simp] theorem State.exchanged_cr1 (tx rx : Byte) : (s.exchanged tx rx).cr1 = s.cr1 := rfl
@[simp] theorem State.exchanged_cr2 (tx rx : Byte) : (s.exchanged tx rx).cr2 = s.cr2 := rfl
@[simp] theorem State.exchanged_sr (tx rx : Byte) : (s.exchanged tx rx).sr = s.sr := rfl
@[simp] theorem State.exchanged_dr (tx rx : Byte) : (s.exchanged tx rx).dr = s.dr := rfl
@[simp] theorem State.exchanged_cs (tx rx : Byte) : (s.exchanged tx rx).cs = s.cs := rfl
@[simp] theorem State.exchanged_requests (tx rx : Byte) : (s.exchanged tx rx).requests = s.requests := rfl
@[simp] theorem State.exchanged_rdata (tx rx : Byte) : (s.exchanged tx rx).rdata = s.rdata := rfl
@[simp] theorem State.exchanged_linkAnswers (tx rx : Byte) : (s.exchanged tx rx).linkAnswers = s.linkAnswers.drop 1 := rfl
@[simp] theorem State.exchanged_trace (tx rx : Byte) : (s.exchanged tx rx).trace = s.trace ++ [.exchange tx rx] := rfl

/-! ## `resetRegisters` -/

@[simp] theorem State.resetRegisters_cr1 : (s.resetRegisters).cr1 = 0x0#32 := rfl
@[simp] theorem State.resetRegisters_cr2 : (s.resetRegisters).cr2 = 0x0#32 := rfl
@[simp] theorem State.resetRegisters_sr : (s.resetRegisters).sr = 0x2#32 := rfl
@[simp] theorem State.resetRegisters_dr : (s.resetRegisters).dr = 0xC#32 := rfl
@[simp] theorem State.resetRegisters_cs : (s.resetRegisters).cs = 0x0#32 := rfl
@[simp] theorem State.resetRegisters_requests : (s.resetRegisters).requests = s.requests := rfl
@[simp] theorem State.resetRegisters_rdata : (s.resetRegisters).rdata = s.rdata := rfl
@[simp] theorem State.resetRegisters_linkAnswers : (s.resetRegisters).linkAnswers = s.linkAnswers := rfl
@[simp] theorem State.resetRegisters_trace : (s.resetRegisters).trace = s.trace := rfl

/-! ## `restore` -/

@[simp] theorem State.restore_cr1 (p : Snapshot) : (s.restore p).cr1 = p.cr1 := rfl
@[simp] theorem State.restore_cr2 (p : Snapshot) : (s.restore p).cr2 = p.cr2 := rfl
@[simp] theorem State.restore_sr (p : Snapshot) : (s.restore p).sr = p.sr := rfl
@[simp] theorem State.restore_dr (p : Snapshot) : (s.restore p).dr = p.dr := rfl
@[simp] theorem State.restore_cs (p : Snapshot) : (s.restore p).cs = p.cs := rfl
@[simp] theorem State.restore_requests (p : Snapshot) : (s.restore p).requests = s.requests := rfl
@[simp] theorem State.restore_rdata (p : Snapshot) : (s.restore p).rdata = s.rdata := rfl
@[simp] theorem State.restore_linkAnswers (p : Snapshot) : (s.restore p).linkAnswers = s.linkAnswers := rfl
@[simp] theorem State.restore_trace (p : Snapshot) : (s.restore p).trace = s.trace := rfl

/-! ## Register access -/

@[simp] theorem State.get_put_same (r : Reg) (v : Word) : (s.put r v).get r = v := by cases r <;> rfl

@[simp] theorem State.get_put_other (r q : Reg) (v : Word) (h : q ≠ r) : (s.put r v).get q = s.get q := by
  cases r <;> cases q <;> first | rfl | exact absurd rfl h

@[simp] theorem State.get_cr1 : s.get .cr1 = s.cr1 := rfl
@[simp] theorem State.get_cr2 : s.get .cr2 = s.cr2 := rfl
@[simp] theorem State.get_sr : s.get .sr = s.sr := rfl
@[simp] theorem State.get_dr : s.get .dr = s.dr := rfl
@[simp] theorem State.get_cs : s.get .cs = s.cs := rfl

end Sys2Proof.Machine
end

