-- ==== Sys2Proof/Laws/Ops.lean ====
section
/-! SUPPORT. One lemma per shared operation that says once everything it does; later proofs cite these. -/

namespace Sys2Proof.Machine

/-! ## Words -/

theorem zext32_high (b : Byte) : (zext32 b).extractLsb' 8 24 = 0#24 := by
  ext i hi
  simp [zext32, BitVec.getLsbD_setWidth]

theorem trunc8_zext32 (b : Byte) : trunc8 (zext32 b) = b := by
  ext i hi
  simp only [trunc8, zext32, BitVec.getElem_extractLsb', BitVec.getLsbD_setWidth]
  rw [BitVec.getLsbD_eq_getElem (by omega)]
  simp
  omega

theorem getLsbD_setBits (v mask : Word) (j : Nat) :
    (setBits v mask).getLsbD j = (v.getLsbD j || mask.getLsbD j) := by
  simp [setBits]

theorem getLsbD_clearBits (v mask : Word) (j : Nat) (h : j < 32) :
    (clearBits v mask).getLsbD j = (v.getLsbD j && !mask.getLsbD j) := by
  simp [clearBits, h]

/-- Two words that agree on all 32 bits are equal. -/
theorem word_ext {v w : Word} (h : ∀ j < 32, v.getLsbD j = w.getLsbD j) : v = w :=
  BitVec.eq_of_getLsbD_eq h

/-! ## Flags -/

/-- The net effect of the exchange branch on `sr` is to set RXNE and TXE, every other bit as before (R82). -/
theorem exchange_sr (sr : Word) :
    setBits (setBits (clearBits (clearBits sr srRxneMask) srTxeMask) srRxneMask) srTxeMask = sr ||| 0x3#32 := by
  apply word_ext
  intro j hj
  simp only [getLsbD_setBits, getLsbD_clearBits _ _ _ hj, BitVec.getLsbD_or]
  interval_cases j <;> simp [srRxneMask, srTxeMask]

/-- Clearing RXNE, bit by bit (R63). -/
theorem clear_rxne_bit (sr : Word) (j : Nat) (h : j < 32) :
    (clearBits sr srRxneMask).getLsbD j = if j = 0 then false else sr.getLsbD j := by
  rw [getLsbD_clearBits _ _ _ h]
  interval_cases j <;> simp [srRxneMask]

/-- Recording an error condition, bit by bit (R101, R102). -/
theorem set_error_bit (sr : Word) (e : ErrorFlag) (j : Nat) (h : j < 32) :
    (setBits sr (errorMask e)).getLsbD j =
      (sr.getLsbD j || match e with | .underrun => decide (j = 2) | .overrun => decide (j = 3)) := by
  rw [getLsbD_setBits]
  cases e <;> interval_cases j <;> simp [errorMask, srUnderrunMask, srOverrunMask]

/-- Write-1-to-clear, bit by bit (R72). -/
theorem clear_errors_bit (sr wdata : Word) (j : Nat) (h : j < 32) :
    (clearBits sr (srClearMask wdata)).getLsbD j =
      (sr.getLsbD j && !((decide (j = 2) || decide (j = 3)) && wdata.getLsbD j)) := by
  rw [getLsbD_clearBits _ _ _ h]
  simp only [srClearMask, srErrMask, BitVec.getLsbD_and]
  interval_cases j <;> simp

/-! ## The Transfer -/

/-- Everything an exchange does (R82): one link call with `tx`, the answer in `dr`, RXNE and TXE set, the line driven. -/
theorem exchangeBranch_eq (tx : Byte) (s : State) :
    exchangeBranch tx s =
      { s with
        sr := s.sr ||| 0x3#32
        dr := zext32 (s.linkAnswer tx)
        linkAnswers := s.linkAnswers.drop 1
        trace := s.trace ++ [.exchange tx (s.linkAnswer tx), .irqDrive (irqLevel s.cr2 (s.sr ||| 0x3#32))] } := by
  simp [exchangeBranch, State.linkExchange, State.linkAnswer, State.driveIrq, State.emit, State.exchanged, State.put,
    trunc8_zext32, exchange_sr]

/-- Everything an overrun does (R81): OVERRUN set, the line driven, and `dr` by the parameter. -/
theorem overrunBranch_eq (p : DrOnOverrun) (tx : Byte) (s : State) :
    overrunBranch p tx s =
      { s with
        sr := setBits s.sr srOverrunMask
        dr := match p with | .keep => s.dr | .overwrite => zext32 tx
        trace := s.trace ++ [.irqDrive (irqLevel s.cr2 (setBits s.sr srOverrunMask))] } := by
  cases p <;> rfl

/-- The branch is chosen by RXNE alone (R80). -/
theorem transfer_full {s : State} (h : s.sr.getLsbD 0 = true) (p : DrOnOverrun) (tx : Byte) :
    transfer p tx s = overrunBranch p tx s := by
  unfold transfer srRxne
  rw [h]
  rfl

theorem transfer_empty {s : State} (h : s.sr.getLsbD 0 = false) (p : DrOnOverrun) (tx : Byte) :
    transfer p tx s = exchangeBranch tx s := by
  unfold transfer srRxne
  rw [h]
  rfl

/-- A scheduled answer is the next one given. -/
theorem linkAnswer_scheduled {s : State} {rx : Byte} {rest : List Byte} (h : s.linkAnswers = rx :: rest) (tx : Byte) :
    s.linkAnswer tx = rx := by
  simp [State.linkAnswer, h]

/-- With no answer scheduled the link answers the free value. -/
theorem linkAnswer_free {s : State} (h : s.linkAnswers = []) (tx : Byte) :
    s.linkAnswer tx = Config.linkByte (observedHistory s.trace) tx (csNibble s.cs) := by
  simp [State.linkAnswer, h]

/-! ## The observed history -/

@[simp] theorem observedHistory_append (a b : List Event) :
    observedHistory (a ++ b) = observedHistory a ++ observedHistory b := by
  simp [observedHistory]

/-- A diagnostic report is no part of the observed history (R103). -/
@[simp] theorem observedHistory_report (s : State) (kind : DiagKind) (offset : Word) (wdata : Option Word) :
    observedHistory (s.report kind offset wdata).trace = observedHistory s.trace := by
  unfold State.report State.emit
  split <;> simp [observedHistory, Event.observed]

/-- The link's answer depends on the past through the observed history alone (R83, R103). -/
theorem linkAnswer_congr (s : State) (past : List Event) (h : observedHistory past = observedHistory s.trace) (tx : Byte) :
    State.linkAnswer { s with trace := past } tx = s.linkAnswer tx := by
  simp only [State.linkAnswer, h]

/-! ## What a read of DR does to `sr` -/

theorem consumeOrUnderrun_eq (s : State) :
    consumeOrUnderrun s =
      { s with sr := if s.sr.getLsbD 0 then clearBits s.sr srRxneMask else setBits s.sr srUnderrunMask } := by
  unfold consumeOrUnderrun srRxne
  split <;> rfl

/-! ## The pushed levels -/

theorem lastIrqDrive_append (a : List Event) (e : Event) :
    lastIrqDrive (a ++ [e]) = match e with | .irqDrive l => l | _ => lastIrqDrive a := by
  cases e <;> simp [lastIrqDrive]

theorem lastLineDrive_append (line : Fin 4) (a : List Event) (e : Event) :
    lastLineDrive line (a ++ [e]) =
      match e with | .lineDrive i l => if i = line then l else lastLineDrive line a | _ => lastLineDrive line a := by
  cases e <;> simp [lastLineDrive]

/-- Re-deriving all four lines leaves the pushed view equal to the function (R91). -/
theorem driveLines_agree (s : State) : PushedLinesAgree s.driveLines := by
  intro line
  fin_cases line <;> simp [lastLineDrive]

/-! ## Operations complete -/

/-- Every operation answers a next state: nothing in the block faults or stops (R53, R66, R76, R100). -/
theorem exec_isNext (i : Instr) (s : State) : ∃ t, exec i s = .next t := by
  cases i <;> exact ⟨_, rfl⟩

/-- No operation touches the host's further requests. -/
theorem exec_requests {i : Instr} {s t : State} (h : exec i s = .next t) : t.requests = s.requests := by
  cases i with
  | rdDr =>
    cases h
    simp [consumeOrUnderrun_eq]
  | wrDr wdata =>
    cases h
    by_cases hr : s.sr.getLsbD 0 = true
    · simp [transfer_full hr, overrunBranch_eq]
    · simp [transfer_empty (Bool.not_eq_true _ ▸ hr), exchangeBranch_eq]
  | _ => cases h; rfl

/-- Everything a step can be (R6, R35, R39): idle, one operation of the oldest request, or a refusal. -/
theorem step_cases (s : State) :
    (s.requests = [] ∧ step s = .next s) ∨
    (∃ r rest i, s.requests = r :: rest ∧ decodeRequest r = .ok i ∧ step s = exec i { s with requests := rest }) ∨
    (∃ r rest why, s.requests = r :: rest ∧ decodeRequest r = .error why ∧ step s = .refused (.undecodable why)) := by
  unfold step
  split
  · exact .inl ⟨by assumption, rfl⟩
  · rename_i r rest hr
    split
    · exact .inr (.inl ⟨r, rest, _, hr, by assumption, rfl⟩)
    · exact .inr (.inr ⟨r, rest, _, hr, by assumption, rfl⟩)

end Sys2Proof.Machine
end

