-- ==== Sys2Proof/Laws/PerInstr.lean ====
section
/-! SUPPORT. Facts stated for every operation, one lemma per constructor. Family `RequestRoundTrip`: the request by which a host asks for a
well-formed operation decodes to that operation (R51, R52). -/

namespace Sys2Proof.Laws.RequestRoundTrip

open Sys2Proof.Machine

/-- The request of a well-formed operation decodes to it. -/
def Statement (i : Instr) : Prop := i.wellFormed = true → decodeRequest (requestOf i) = .ok i

/-- A key of an undefined offset hits no full-key row, so the default row of its direction is taken (R51). -/
theorem decodeKey_undefined (isWrite : Bool) (offset wdata : Word) (h : undefinedOffset offset = true) :
    decodeKey (keyOf isWrite offset) wdata = if isWrite then .wrUndef offset wdata else .rdUndef offset := by
  have hne : offset ≠ 0x00#32 ∧ offset ≠ 0x04#32 ∧ offset ≠ 0x08#32 ∧ offset ≠ 0x0C#32 ∧ offset ≠ 0x10#32 := by
    simp [undefinedOffset, regAt, allRegs, regOffset] at h
    exact ⟨fun e => h.1 e.symm, fun e => h.2.1 e.symm, fun e => h.2.2.1 e.symm, fun e => h.2.2.2.1 e.symm,
      fun e => h.2.2.2.2 e.symm⟩
  have hoff : keyOffset (keyOf isWrite offset) = offset := by
    ext j hj
    simp only [keyOffset, keyOf, BitVec.getElem_extractLsb', BitVec.getLsbD_append]
    simp [hj]
  have hdir : keyIsWrite (keyOf isWrite offset) = isWrite := by
    simp only [keyIsWrite, keyOf, BitVec.getLsbD_append]
    simp
  have hmiss : opRows.find? (fun r => r.hits (keyOf isWrite offset)) = none := by
    have key : ∀ (k : Key) (v : Word), keyOffset k = v → offset ≠ v →
        (keyOf isWrite offset &&& 0x1FFFFFFFF#33 == k) = false := by
      intro k v hk hv
      have : (0x1FFFFFFFF#33 : Key) = BitVec.allOnes 33 := by decide
      rw [this, BitVec.and_allOnes]
      simp only [beq_eq_false_iff_ne, ne_eq]
      intro e
      exact hv (by rw [← hoff, e, hk])
    simp only [opRows, OpRow.hits, List.find?_cons, List.find?_nil]
    rw [key _ 0x00#32 rfl hne.1, key _ 0x04#32 rfl hne.2.1, key _ 0x08#32 rfl hne.2.2.1, key _ 0x0C#32 rfl hne.2.2.2.1,
      key _ 0x10#32 rfl hne.2.2.2.2, key _ 0x00#32 rfl hne.1, key _ 0x04#32 rfl hne.2.1, key _ 0x08#32 rfl hne.2.2.1,
      key _ 0x0C#32 rfl hne.2.2.2.1, key _ 0x10#32 rfl hne.2.2.2.2]
  simp only [decodeKey, hmiss, hdir, hoff]

/-- Of a 32-bit datum `trunc_32` takes all. -/
theorem trunc32_toNat (w : Word) : trunc32 w.toNat = w := by
  simp [trunc32]

theorem rdCr1 : Statement .rdCr1 := fun _ => rfl
theorem rdCr2 : Statement .rdCr2 := fun _ => rfl
theorem rdSr : Statement .rdSr := fun _ => rfl
theorem rdDr : Statement .rdDr := fun _ => rfl
theorem rdCs : Statement .rdCs := fun _ => rfl

theorem rdUndef (offset : Word) : Statement (.rdUndef offset) := by
  intro h
  have hu : undefinedOffset offset = true := by
    simp only [Instr.wellFormed, Instr.illFormed] at h
    split at h
    · assumption
    · simp at h
  simp [requestOf, transactionOf, decodeRequest, decodeKey_undefined _ _ _ hu]

theorem wrCr1 (wdata : Word) : Statement (.wrCr1 wdata) := fun _ => by
  simp only [requestOf, transactionOf, decodeRequest, trunc32_toNat]; rfl
theorem wrCr2 (wdata : Word) : Statement (.wrCr2 wdata) := fun _ => by
  simp only [requestOf, transactionOf, decodeRequest, trunc32_toNat]; rfl
theorem wrSr (wdata : Word) : Statement (.wrSr wdata) := fun _ => by
  simp only [requestOf, transactionOf, decodeRequest, trunc32_toNat]; rfl
theorem wrDr (wdata : Word) : Statement (.wrDr wdata) := fun _ => by
  simp only [requestOf, transactionOf, decodeRequest, trunc32_toNat]; rfl
theorem wrCs (wdata : Word) : Statement (.wrCs wdata) := fun _ => by
  simp only [requestOf, transactionOf, decodeRequest, trunc32_toNat]; rfl

theorem wrUndef (offset wdata : Word) : Statement (.wrUndef offset wdata) := by
  intro h
  have hu : undefinedOffset offset = true := by
    simp only [Instr.wellFormed, Instr.illFormed] at h
    split at h
    · assumption
    · simp at h
  simp [requestOf, transactionOf, decodeRequest, trunc32_toNat, decodeKey_undefined _ _ _ hu]

theorem reset : Statement .reset := fun _ => rfl

end Sys2Proof.Laws.RequestRoundTrip
end

