-- ==== Sys2Proof/Tests/Slice0.lean ====
section
/-! SUPPORT. This model's own tests: the well-formedness smoke test, words written out from the spec's encodings, one step each from the vectors
of spec/95_test_vectors.md (their ids are cited), and for each obligation with hypotheses a witness that meets them. Expected values
come from the spec's tables, not from the model. -/

namespace Sys2Proof.Tests

open Sys2Proof Sys2Proof.Machine

/-- A state as the vectors write it, with the Serial Link's answers. -/
def st (cr1 cr2 sr dr cs : Word) (answers : List Byte) : State :=
  { cr1, cr2, sr, dr, cs, requests := [], rdata := none, linkAnswers := answers, trace := [] }

/-- What is looked at in the next state, if there is one. -/
def look {α : Type} (f : State → α) : Host.Outcome State Fault Refusal → Option α
  | .next t => some (f t)
  | .fault _ => none
  | .refused _ => none

/-- The vectors' columns: the value returned, `sr`, `dr`, `irq`. -/
def data (t : State) : Option Word × Word × Word × Bool := (t.rdata, t.sr, t.dr, t.irq)

/-- The vectors' columns: the value returned, `cs`, `irq`, the lines 3..0. -/
def lines (t : State) : Option Word × Word × Bool × Nibble := (t.rdata, t.cs, t.irq, csNibble t.cs)

/-! ## WellFormed refuses each ill-formed term -/

theorem test_illformed_read_of_a_register_offset :
    Instr.illFormed (.rdUndef 0x0C#32) = some (.readOffsetIsDefined 0x0C#32) := by decide

theorem test_illformed_write_at_a_register_offset :
    Instr.illFormed (.wrUndef 0x10#32 0x1#32) = some (.writeOffsetIsDefined 0x10#32) := by decide

theorem test_wellformed_misaligned_offset : Instr.wellFormed (.rdUndef 0x0D#32) = true := by decide

/-! ## Words written out from the keys of R46 and R51: direction bit 1, offset 32 bits -/

theorem test_decode_rd_cr1 : decodeKey (0b0#1 ++ 0x00#32) 0x0#32 = .rdCr1 := by decide
theorem test_decode_rd_cr2 : decodeKey (0b0#1 ++ 0x04#32) 0x0#32 = .rdCr2 := by decide
theorem test_decode_rd_sr : decodeKey (0b0#1 ++ 0x08#32) 0x0#32 = .rdSr := by decide
theorem test_decode_rd_dr : decodeKey (0b0#1 ++ 0x0C#32) 0x0#32 = .rdDr := by decide
theorem test_decode_rd_cs : decodeKey (0b0#1 ++ 0x10#32) 0x0#32 = .rdCs := by decide
theorem test_decode_rd_undef : decodeKey (0b0#1 ++ 0x100#32) 0x0#32 = .rdUndef 0x100#32 := by decide
theorem test_decode_wr_cr1 : decodeKey (0b1#1 ++ 0x00#32) 0xDEADBEEF#32 = .wrCr1 0xDEADBEEF#32 := by decide
theorem test_decode_wr_cr2 : decodeKey (0b1#1 ++ 0x04#32) 0xE0#32 = .wrCr2 0xE0#32 := by decide
theorem test_decode_wr_sr : decodeKey (0b1#1 ++ 0x08#32) 0x0C#32 = .wrSr 0x0C#32 := by decide
theorem test_decode_wr_dr : decodeKey (0b1#1 ++ 0x0C#32) 0x1FF#32 = .wrDr 0x1FF#32 := by decide
theorem test_decode_wr_cs : decodeKey (0b1#1 ++ 0x10#32) 0xF5#32 = .wrCs 0xF5#32 := by decide
theorem test_decode_wr_undef : decodeKey (0b1#1 ++ 0x0A#32) 0x0C#32 = .wrUndef 0x0A#32 0x0C#32 := by decide
theorem test_decode_reset : decodeRequest .reset = .ok .reset := by decide

/-- The bytes of `WR DR, 0xA5`: key 0x10000000C, then the datum. -/
theorem test_decode_bytes_wr_dr :
    decode [0x0C#8, 0x00#8, 0x00#8, 0x00#8, 0x01#8, 0xA5#8, 0x00#8, 0x00#8, 0x00#8, 0x77#8] =
      .ok (.wrDr 0xA5#32, [0x77#8]) := by decide

theorem test_decode_short_bytes : decode [0x0C#8, 0x00#8] = .error .truncatedFrame := by decide

/-- A byte access is refused by name (R35). -/
theorem test_narrow_access_is_refused :
    decodeRequest (.read (.other 1) 0x0C#32) = .error (.accessWidth (.other 1)) := by decide

/-- The opcode table's word of `WR_CR2` as the host numbers it. -/
theorem test_table_word_wr_cr2 : decodeTableWord 40 0x100000004 = some (.wrCr2 0x0#32) := by decide

/-- A host load of `RD_DR` at the last offset of the smallest window (R30). -/
theorem test_host_load_cs : memRead ⟨0x40000000, 0x14⟩ 0x40000010 4 = some (.read .word32 0x10#32) := by decide

/-! ## One step each, from the vectors -/

/-- A1. -/
theorem test_rd_cr1 :
    look State.rdata (exec .rdCr1 (st 0xDEADBEEF#32 0x0#32 0x2#32 0xC#32 0x0#32 [])) = some (some 0xDEADBEEF#32) := by decide
/-- A3. -/
theorem test_rd_cr2 :
    look (fun t => (t.rdata, t.irq)) (exec .rdCr2 (st 0x44#32 0xFFFFFFFF#32 0x2#32 0xC#32 0x0#32 [])) =
      some (some 0xFFFFFFFF#32, true) := by decide
/-- A6: reading SR clears nothing. -/
theorem test_rd_sr :
    look data (exec .rdSr (st 0x0#32 0x60#32 0xB#32 0x22#32 0x0#32 [])) = some (some 0xB#32, 0xB#32, 0x22#32, true) := by decide
/-- B9: consume, and `irq` falls. -/
theorem test_rd_dr_consumes :
    look data (exec .rdDr (st 0x0#32 0x40#32 0x3#32 0x5A#32 0x0#32 [])) = some (some 0x5A#32, 0x2#32, 0x5A#32, false) := by decide
/-- B10: underrun, and `irq` rises. -/
theorem test_rd_dr_underruns :
    look data (exec .rdDr (st 0x0#32 0x20#32 0x2#32 0x5A#32 0x0#32 [])) = some (some 0x5A#32, 0x6#32, 0x5A#32, true) := by decide
/-- A8. -/
theorem test_rd_cs :
    look lines (exec .rdCs (st 0x0#32 0x0#32 0x2#32 0xC#32 0xF3#32 [])) = some (some 0xF3#32, 0xF3#32, false, 0b1100#4) := by decide
/-- U2: not a DR read, RXNE kept. -/
theorem test_rd_undef :
    look data (exec (.rdUndef 0x0D#32) (st 0x0#32 0x0#32 0x3#32 0x5A#32 0x0#32 [])) = some (some 0x0#32, 0x3#32, 0x5A#32, false) := by decide
/-- C3: clearing SPE changes nothing else. -/
theorem test_wr_cr1 :
    look (fun t => (t.cr1, t.sr, t.dr, t.cs)) (exec (.wrCr1 0x0#32) (st 0x44#32 0x0#32 0x3#32 0x5A#32 0x11#32 [])) =
      some (0x0#32, 0x3#32, 0x5A#32, 0x11#32) := by decide
/-- C7: ERRIE with UNDERRUN already set. -/
theorem test_wr_cr2_raises :
    look (fun t => (t.cr2, t.irq)) (exec (.wrCr2 0x20#32) (st 0x0#32 0x0#32 0x6#32 0xC#32 0x0#32 [])) = some (0x20#32, true) := by decide
/-- C11: only bits 7:5 matter. -/
theorem test_wr_cr2_lowers :
    look (fun t => (t.cr2, t.irq)) (exec (.wrCr2 0xFFFFFF1F#32) (st 0x0#32 0xE0#32 0xF#32 0x0#32 0x0#32 [])) =
      some (0xFFFFFF1F#32, false) := by decide
/-- D14: clears OVERRUN alone; `irq` stays 1, RXNE pending. -/
theorem test_wr_sr_clears_overrun :
    look data (exec (.wrSr 0x8#32) (st 0x0#32 0x60#32 0xB#32 0x22#32 0x0#32 [])) = some (none, 0x3#32, 0x22#32, true) := by decide
/-- X7: clears bits 3:2 only, from an unreachable state. -/
theorem test_wr_sr_clears_nothing_else :
    look State.sr (exec (.wrSr 0xFFFFFFFF#32) (st 0x0#32 0x0#32 0xFFFFFFFF#32 0x0#32 0x0#32 [])) = some 0xFFFFFFF3#32 := by decide
/-- E2: the datum truncated to 0xFF, the answer 0x00. -/
theorem test_wr_dr_exchanges :
    look (fun t => (t.sr, t.dr, exchangesOf t.trace)) (exec (.wrDr 0x1FF#32) (st 0x0#32 0x0#32 0x2#32 0xC#32 0x0#32 [0x00#8, 0x77#8])) =
      some (0x3#32, 0x0#32, [(0xFF#8, 0x00#8)]) := by decide
/-- F5: overrun, `dr` kept, no exchange, `irq` rises. -/
theorem test_wr_dr_overruns :
    look (fun t => (data t, exchangesOf t.trace)) (exec (.wrDr 0x33#32) (st 0x0#32 0x20#32 0x3#32 0x22#32 0x0#32 [0x44#8])) =
      some ((none, 0xB#32, 0x22#32, true), []) := by decide
/-- G5. -/
theorem test_wr_cs :
    look lines (exec (.wrCs 0xF5#32) (st 0x0#32 0x0#32 0x2#32 0xC#32 0x0#32 [])) = some (none, 0xF5#32, false, 0b1010#4) := by decide
/-- G7: bit 8 discarded. -/
theorem test_wr_cs_truncates :
    look lines (exec (.wrCs 0x1F3#32) (st 0x0#32 0x0#32 0x2#32 0xC#32 0x0#32 [])) = some (none, 0xF3#32, false, 0b1100#4) := by decide
/-- U8: not an SR write, flags kept. -/
theorem test_wr_undef :
    look data (exec (.wrUndef 0x0A#32 0xC#32) (st 0x0#32 0x0#32 0xF#32 0x0#32 0x0#32 [])) = some (none, 0xF#32, 0x0#32, false) := by decide
/-- Z1: `irq` was 1, is 0 after. -/
theorem test_reset :
    look (fun t => (data t, lines t)) (exec .reset (st 0x44#32 0xE0#32 0xF#32 0x99#32 0xFF#32 [])) =
      some ((none, 0x2#32, 0xC#32, false), (none, 0x0#32, false, 0b1111#4)) := by decide
/-- X8: `irq` uses cr2[7:5] and sr[3:0] only. -/
theorem test_irq_ignores_other_bits : (st 0x0#32 0xFFFFFF1F#32 0xFFFFFFF0#32 0x0#32 0x0#32 []).irq = false := by decide

/-! ## Witnesses: each meets all the hypotheses of the obligation it is named after -/

/-- A full state with both error flags set and every interrupt enabled, in which the link's next answer is known. -/
def full : State := { st 0x44#32 0xE0#32 0xF#32 0x22#32 0xF5#32 [0x5A#8] with requests := [.read .word32 0x0C#32, .reset] }

theorem witness_StepRunsTheOldestRequest :
    full.requests = .read .word32 0x0C#32 :: [.reset] ∧ decodeRequest (.read .word32 0x0C#32) = .ok .rdDr := by decide
theorem witness_StepWithoutARequestChangesNothing : State.reset.requests = [] := by decide
theorem witness_OnlyThirtyTwoBitAccessesHaveAMeaning :
    { full with requests := [.read (.other 0) 0x0C#32] }.requests = .read (.other 0) 0x0C#32 :: [] ∧
    { full with requests := [.write (.other 8) 0x0D#32 0x5A] }.requests = .write (.other 8) 0x0D#32 0x5A :: [] ∧
    { full with requests := [.read .word32 0xFFFFFFFF#32] }.requests = .read .word32 0xFFFFFFFF#32 :: [] ∧
    { full with requests := [.write .word32 0x0#32 0x100000000] }.requests = .write .word32 0x0#32 0x100000000 :: [] := by decide
theorem witness_RequestsRunInOrder :
    (∀ i ∈ [Instr.rdDr, Instr.reset], i.wellFormed = true) ∧
    full.requests = [Instr.rdDr, Instr.reset].map requestOf ++ [] := by decide
theorem witness_NoStepStopsForADutifulHost : HostKeepsWidth full := by decide
theorem witness_DecodeOfEncodeIsTheOperation :
    Instr.wellFormed (.wrDr 0xFFFFFFFF#32) = true ∧ Instr.wellFormed (.rdUndef 0x11#32) = true ∧
    Instr.wellFormed (.wrUndef 0xFFFFFFFF#32 0x80000001#32) = true ∧ Instr.wellFormed .reset = true := by decide
theorem witness_DecodedOperationsAreWellFormed :
    decode (encode (.rdUndef 0x14#32) ++ [0x1#8]) = .ok (.rdUndef 0x14#32, [0x1#8]) ∧
    frameForm (mkFrame 0#7 0x10000000C#33 0xA5#32) = 0#7 ∧ frameForm (mkFrame 1#7 0x0#33 0x0#32) = 1#7 ∧
    frameForm (mkFrame 2#7 0x0#33 0x0#32) ≠ 0#7 ∧ frameForm (mkFrame 2#7 0x0#33 0x0#32) ≠ 1#7 ∧
    frameForm (mkFrame 127#7 0x0#33 0x0#32) ≠ 1#7 := by decide
theorem witness_HostLoadsAndStoresReachTheirRegister :
    Window.ok ⟨0x40000000, 0x14⟩ = true ∧ Window.ok ⟨0, 2 ^ 32⟩ = true ∧
    (0x11 < 0x14 ∧ 0x11 ≠ 0x00 ∧ 0x11 ≠ 0x04 ∧ 0x11 ≠ 0x08 ∧ 0x11 ≠ 0x0C ∧ 0x11 ≠ 0x10) ∧ (0x13 < 0x14 ∧ 1 ≠ 4) ∧
    (0x3FFFFFFF < 0x40000000 ∨ 0x40000000 + 0x14 ≤ 0x3FFFFFFF) ∧ (0x40000014 < 0x40000000 ∨ 0x40000000 + 0x14 ≤ 0x40000014) := by decide
theorem witness_ResetOperationWhole :
    (∃ t, exec .reset full = .next t) ∧ (∃ t, exec (.wrCr1 0x0#32) full = .next t) := ⟨⟨_, rfl⟩, ⟨_, rfl⟩⟩
theorem witness_ReadsAfterReset : ∃ t, exec .reset full = .next t := ⟨_, rfl⟩
theorem witness_PlainReadsReturnTheirRegister :
    (∃ t, exec .rdCr1 full = .next t) ∧ (∃ t, exec .rdCr2 full = .next t) ∧ (∃ t, exec .rdSr full = .next t) ∧
    (∃ t, exec .rdCs full = .next t) ∧ (∃ t, exec (.wrCr1 0xFFFFFFFF#32) full = .next t) ∧
    (∃ t, exec (.wrCr2 0xFFFFFFFF#32) full = .next t) ∧ (∃ t, exec (.wrCs 0xFFFFFFFF#32) full = .next t) ∧
    (∃ t, exec .reset full = .next t) ∧ RegInv full :=
  ⟨⟨_, rfl⟩, ⟨_, rfl⟩, ⟨_, rfl⟩, ⟨_, rfl⟩, ⟨_, rfl⟩, ⟨_, rfl⟩, ⟨_, rfl⟩, ⟨_, rfl⟩, by decide⟩
theorem witness_UndefinedReadReturnsZero :
    ∀ o ∈ [0x01#32, 0x0B#32, 0x0D#32, 0x0F#32, 0x11#32, 0x14#32, 0xFFFFFFFF#32],
      o ≠ 0x00#32 ∧ o ≠ 0x04#32 ∧ o ≠ 0x08#32 ∧ o ≠ 0x0C#32 ∧ o ≠ 0x10#32 := by simp
theorem witness_UndefinedReadReturnsZero_next : ∃ t, exec (.rdUndef 0x0D#32) full = .next t := ⟨_, rfl⟩
theorem witness_ReadsInCommon : isRead .rdDr = true ∧ isRead .rdSr = true ∧ Instr.rdSr ≠ .rdDr := by decide
theorem witness_WriteCr1StoresAllBits :
    (∃ t, exec (.wrCr1 0x44#32) full = .next t) ∧ (0x44#32 : Word) = full.cr1 := ⟨⟨_, rfl⟩, rfl⟩
theorem witness_WriteCr2StoresAllBitsAndDrivesIrq :
    RegInv full ∧ (0x80#32 : Word).getLsbD 7 = true ∧ (0x20#32 : Word).getLsbD 5 = true ∧
    (full.sr.getLsbD 2 = true ∨ full.sr.getLsbD 3 = true) := by decide
theorem witness_WriteCr2StoresAllBitsAndDrivesIrq_same_enables :
    (∀ j, 5 ≤ j → j ≤ 7 → (0xFFFFFFFF#32 : Word).getLsbD j = (0xE0#32 : Word).getLsbD j) ∧
    ∃ u, exec (.wrCr2 0xFFFFFFFF#32) full = .next u := by
  refine ⟨?_, _, rfl⟩
  intro j h5 h7
  interval_cases j <;> decide
theorem witness_WriteCr2StoresAllBitsAndDrivesIrq_txeie :
    RegInv full ∧ (0x80#32 : Word).getLsbD 7 = true ∧ Instr.rdDr ≠ .reset ∧ ∀ v, Instr.rdDr ≠ .wrCr2 v :=
  ⟨by decide, by decide, by decide, fun _ h => (nomatch h)⟩
theorem witness_WriteSrClearsExactlyTheWrittenErrorBits :
    look (fun t => (t.sr, t.irq)) (exec (.wrSr 0x4#32) full) = some (0xB#32, true) := by decide

/-- A state with no unread byte and the line at 1. -/
def empty : State := st 0x0#32 0x80#32 0xA#32 0xC#32 0x11#32 [0x5A#8, 0x00#8]

theorem witness_WriteDrExchangesOneByte :
    empty.sr.getLsbD 0 = false ∧ empty.linkAnswers = 0x5A#8 :: [0x00#8] ∧ empty.irq = true ∧
    State.reset.sr.getLsbD 0 = false ∧ State.reset.linkAnswers = [] := by decide
theorem witness_WriteDrWhileFullOverruns :
    full.sr.getLsbD 0 = true ∧ full.cr2.getLsbD 5 = true ∧ full.irq = true := by decide
theorem witness_UndefinedWriteChangesNothing :
    (∀ o ∈ [0x01#32, 0x0B#32, 0x0D#32, 0x0F#32, 0x11#32, 0x14#32, 0xFFFFFFFF#32],
      o ≠ 0x00#32 ∧ o ≠ 0x04#32 ∧ o ≠ 0x08#32 ∧ o ≠ 0x0C#32 ∧ o ≠ 0x10#32) ∧
    ∃ t, exec (.wrUndef 0x14#32 0x5A#32) full = .next t := ⟨by simp, _, rfl⟩
theorem witness_WritesInCommon :
    isWrite (.wrUndef 0x14#32 0x0#32) = true ∧ isWrite (.wrDr 0x5A#32) = true ∧ full.sr.getLsbD 0 = true ∧
    empty.sr.getLsbD 0 = false := by decide
theorem witness_ReadsInCommon_underrun : isRead .rdDr = true ∧ srRxne empty.sr = false := by decide
theorem witness_WindowFrame :
    (∃ t, exec (.wrDr 0x5A#32) empty = .next t) ∧ (∃ t, exec .rdDr full = .next t) ∧ (∃ t, exec (.wrCs 0x0#32) full = .next t) ∧
    (∃ t, exec (.wrCr1 0x1#32) full = .next t) ∧ (∃ t, exec (.wrCr2 0x1#32) full = .next t) ∧ (∃ t, exec (.wrSr 0xC#32) full = .next t) ∧
    (∃ t, exec .rdSr full = .next t) ∧ (∃ t, exec (.rdUndef 0x14#32) full = .next t) ∧
    (0x10#32 : Word) ≠ 0x0C#32 ∧ (0x10#32 : Word) ≠ 0x08#32 ∧ (0x00#32 : Word) ≠ 0x10#32 ∧ (0x04#32 : Word) ≠ 0x00#32 :=
  ⟨⟨_, rfl⟩, ⟨_, rfl⟩, ⟨_, rfl⟩, ⟨_, rfl⟩, ⟨_, rfl⟩, ⟨_, rfl⟩, ⟨_, rfl⟩, ⟨_, rfl⟩, by decide⟩
theorem witness_IdempotencyOfEachAccess :
    (isRead .rdCs = true ∧ Instr.rdCs ≠ .rdDr ∧ ∃ t, exec .rdCs full = .next t) ∧
    (isWrite (.wrSr 0xC#32) = true ∧ (∀ w, Instr.wrSr 0xC#32 ≠ .wrDr w) ∧ ∃ t, exec (.wrSr 0xC#32) full = .next t) ∧
    (∃ t, exec (.wrUndef 0x14#32 0x0#32) full = .next t) ∧
    (∃ t, exec .rdDr (st 0x0#32 0x0#32 0x3#32 0x5A#32 0x0#32 []) = .next t) ∧
    ((0x3#32 : Word).getLsbD 0 = true ∧ srUnderrun 0x3#32 = false) ∧ (∃ t, exec (.wrDr 0x5A#32) empty = .next t) :=
  ⟨⟨rfl, by decide, _, rfl⟩, ⟨rfl, fun _ h => (nomatch h), _, rfl⟩, ⟨_, rfl⟩, ⟨_, rfl⟩, by decide, _, rfl⟩
theorem witness_StatusTransitionTable :
    reachableStatus.all (fun v => (st 0x0#32 0x0#32 v 0x0#32 0x0#32 []).sr == v) = true ∧
    full.sr.getLsbD 0 = true ∧ empty.sr.getLsbD 0 = false ∧
    (0xFFFFFFF7#32 : Word).extractLsb' 2 2 = 0b01#2 ∧ (0x8#32 : Word).extractLsb' 2 2 = 0b10#2 ∧
    (0xFFFFFFFF#32 : Word).extractLsb' 2 2 = 0b11#2 ∧ (0xF3#32 : Word).extractLsb' 2 2 = 0b00#2 := by decide
theorem witness_StatusTransitionTable_other_operation :
    (∃ t, exec (.wrCs 0xFF#32) full = .next t) ∧ Instr.wrCs 0xFF#32 ≠ .reset ∧ Instr.wrCs 0xFF#32 ≠ .rdDr ∧
    ∀ w, Instr.wrCs 0xFF#32 ≠ .wrDr w ∧ Instr.wrCs 0xFF#32 ≠ .wrSr w :=
  ⟨⟨_, rfl⟩, by decide, by decide, fun _ => ⟨fun h => (nomatch h), fun h => (nomatch h)⟩⟩
theorem witness_ExchangesAreTriggeredByAcceptedDrWritesAlone :
    empty.sr.getLsbD 0 = false ∧ full.sr.getLsbD 0 = true := by decide
theorem witness_EveryStepKeepsTheInvariant : RegInv full ∧ ∃ t, step full = .next t := ⟨by decide, _, rfl⟩
theorem witness_ResetMeetsTheInvariant : ∃ t, exec .reset full = .next t := ⟨_, rfl⟩
theorem witness_ReachableStatusValues : Reachable State.reset ∧ 0x2#32 ∈ reachableStatus ∧ 0xF#32 ∈ reachableStatus :=
  ⟨.reset, by decide, by decide⟩
theorem witness_OneOperationRaisesAtMostOneError :
    look State.sr (exec (.wrDr 0x0#32) (st 0x0#32 0x0#32 0x3#32 0x0#32 0x0#32 [])) = some 0xB#32 ∧ srOverrun 0x3#32 = false ∧
    srOverrun 0xB#32 = true ∧
    look State.sr (exec .rdDr (st 0x0#32 0x0#32 0x2#32 0x0#32 0x0#32 [])) = some 0x6#32 ∧ srUnderrun 0x2#32 = false ∧
    srUnderrun 0x6#32 = true := by decide
theorem witness_WithoutReadingOnlyTheFirstByteIsSent :
    empty.sr.getLsbD 0 = false ∧ ([0x1#32, 0x2#32] : List Word) ≠ [] := by decide
theorem witness_OverrunRecovery : srRxne full.sr = true ∧ srOverrun full.sr = true ∧ cr2Errie full.cr2 = true := by decide
theorem witness_Cr1HasNoEffect : Instr.rdDr ≠ .rdCr1 := by decide
theorem witness_ErrorFlagsGateNothing : Instr.rdDr ≠ .rdSr ∧ (31 < 32 ∧ 31 ≠ 2 ∧ 31 ≠ 3) := by decide
theorem witness_ChipSelectAndDataPathAreIndependent : full.linkAnswers ≠ [] := by decide
theorem witness_EveryAnswerOfTheLinkIsAdmitted :
    empty.sr.getLsbD 0 = false ∧ full.sr.getLsbD 0 = true ∧ ([0xFF#8, 0x00#8] : List Byte) = 0xFF#8 :: [0x00#8] := by decide
theorem witness_IrqChangesOnlyAsStated :
    full.irq = true ∧ look State.irq (exec (.wrSr 0x4#32) full) = some true := by decide
theorem witness_IrqChangesOnlyAsStated_read :
    (srRxne empty.sr = false ∧ empty.irq = true) ∧
    (srRxne full.sr = true ∧ look State.irq (exec .rdDr full) = some true) := by decide
theorem witness_TxeieHoldsTheLine :
    RegInv full ∧ cr2Txeie full.cr2 = true ∧ Instr.rdDr ≠ .reset ∧ ∀ w, Instr.rdDr ≠ .wrCr2 w :=
  ⟨by decide, by decide, by decide, fun _ h => (nomatch h)⟩
theorem witness_InterruptCausesAreLevels :
    ((srOverrun full.sr = true ∨ srUnderrun full.sr = true) ∧ cr2Errie 0x20#32 = true) ∧
    (srOverrun full.sr = true ∧ srUnderrun full.sr = true ∧ cr2Errie full.cr2 = true ∧
      ¬ ((0x8#32 : Word).getLsbD 2 = true ∧ (0x8#32 : Word).getLsbD 3 = true)) ∧
    (cr2Rxneie 0x40#32 = true ∧ srRxne 0x3#32 = true ∧ cr2Txeie 0x40#32 = false ∧ cr2Errie 0x40#32 = false) := by decide
theorem witness_LinesAreTheDecoderOfCs : (0x0F#32 : Word).getLsbD ((3 : Fin 4).val + 4) = false := by decide
theorem witness_PushedLineLevelsStayCurrent :
    PushedLinesAgree { State.reset with requests := [.write .word32 0x10#32 0x11] } ∧
    ∃ t, step { State.reset with requests := [.write .word32 0x10#32 0x11] } = .next t := ⟨by decide, _, rfl⟩
theorem witness_DiagnosticsAffectNothing :
    observedHistory [.diag .badRead 0x14#32 none, .exchange 0x1#8 0x2#8, .diag .badWrite 0x18#32 (some 0x0#32)] =
      observedHistory { empty with linkAnswers := [], trace := [.exchange 0x1#8 0x2#8] }.trace := by decide
theorem witness_PushedIrqLevelStaysCurrentExceptAcrossReset : Instr.rdDr ≠ .reset ∧ PushedIrqAgrees State.reset := by decide

end Sys2Proof.Tests
end

section
/-! PROOFS. Identity, scope and agents (spec/00_scope.md): what a step does when the host asks for nothing. -/

namespace Sys2Proof.Machine

/-- Settles O2: of the three things a step can be, only the idle one has no request to take. -/
theorem stepWithoutARequestChangesNothing : Obligations.StepWithoutARequestChangesNothing := by
  intro s hnone
  obtain ⟨-, hidle⟩ | ⟨r, rest, i, htaken, -⟩ | ⟨r, rest, why, htaken, -⟩ := step_cases s
  · exact hidle
  · exact absurd (htaken.symm.trans hnone) (List.cons_ne_nil r rest)
  · exact absurd (htaken.symm.trans hnone) (List.cons_ne_nil r rest)

end Sys2Proof.Machine
end

section
/-! PROOFS. The architectural state (spec/10_state.md): what each operation does to `sr`, `dr`, `cs` and the pushed levels, and the
statements on the invariant, the bits of `sr`, CR1, the pushed views and the reset values. -/

namespace Sys2Proof.Machine

/-! ## Bits of `sr` -/

/-- A word whose bits from 4 up are an all-zero field reads 0 at each of them. -/
theorem extractLsb'_high_eq_zero_iff (v : Word) :
    v.extractLsb' 4 28 = 0#28 ↔ ∀ j, 4 ≤ j → v.getLsbD j = false := by
  constructor
  · intro hzero j hj
    by_cases hlt : j < 32
    · have hbit := congrArg (BitVec.getLsbD · (j - 4)) hzero
      simpa [show j - 4 < 28 by omega, show 4 + (j - 4) = j by omega] using hbit
    · exact BitVec.getLsbD_of_ge v j (by omega)
  · intro hbits
    ext k hk
    simpa using hbits (4 + k) (by omega)

/-- The next `sr` of an operation, from the present one (R16 to R20). -/
def srAfter (i : Instr) (sr : Word) : Word :=
  match i with
  | .rdDr => if srRxne sr then clearBits sr srRxneMask else setBits sr srUnderrunMask
  | .wrSr wdata => clearBits sr (srClearMask wdata)
  | .wrDr _ => if srRxne sr then setBits sr srOverrunMask else sr ||| 0x3#32
  | .reset => 0x2#32
  | .rdCr1 | .rdCr2 | .rdSr | .rdCs | .rdUndef _ | .wrCr1 _ | .wrCr2 _ | .wrCs _ | .wrUndef _ _ => sr

theorem srAfter_reset (sr : Word) : srAfter .reset sr = 0x2#32 := rfl

/-- A read of DR clears RXNE, and sets UNDERRUN where RXNE was 0 (R63). -/
theorem getLsbD_srAfter_rdDr (sr : Word) (j : Nat) (hj : j < 32) :
    (srAfter .rdDr sr).getLsbD j = if j = 0 then false else (sr.getLsbD j || (decide (j = 2) && !srRxne sr)) := by
  cases hr : srRxne sr
  · rw [show srAfter .rdDr sr = setBits sr (errorMask .underrun) by simp [srAfter, hr, errorMask], set_error_bit _ _ _ hj]
    by_cases h0 : j = 0
    · subst h0; simpa [srRxne] using hr
    · simp [h0]
  · rw [show srAfter .rdDr sr = clearBits sr srRxneMask by simp [srAfter, hr], clear_rxne_bit _ _ hj]
    simp

/-- A write of DR sets OVERRUN where RXNE was 1, RXNE and TXE where it was 0 (R81, R82). -/
theorem getLsbD_srAfter_wrDr (wdata sr : Word) (j : Nat) (hj : j < 32) :
    (srAfter (.wrDr wdata) sr).getLsbD j =
      (sr.getLsbD j || if srRxne sr then decide (j = 3) else decide (j < 2)) := by
  cases hr : srRxne sr
  · have hmask : (0x3#32 : Word).getLsbD j = decide (j < 2) := by
      interval_cases j <;> rfl
    simp [srAfter, hr, hmask]
  · simpa [srAfter, hr, errorMask] using set_error_bit sr .overrun j hj

/-- A write of SR clears the error bits written as 1 (R72). -/
theorem getLsbD_srAfter_wrSr (wdata sr : Word) (j : Nat) (hj : j < 32) :
    (srAfter (.wrSr wdata) sr).getLsbD j =
      (sr.getLsbD j && !((decide (j = 2) || decide (j = 3)) && wdata.getLsbD j)) :=
  clear_errors_bit sr wdata j hj

/-- No operation but RESET touches a bit of `sr` from 4 up (R20). -/
theorem getLsbD_srAfter_high {i : Instr} (hi : i ≠ .reset) (sr : Word) {j : Nat} (hj : 4 ≤ j) :
    (srAfter i sr).getLsbD j = sr.getLsbD j := by
  by_cases hlt : j < 32
  · cases i with
    | rdDr => simp [getLsbD_srAfter_rdDr _ _ hlt, show j ≠ 0 by omega, show j ≠ 2 by omega]
    | wrSr wdata => simp [getLsbD_srAfter_wrSr _ _ _ hlt, show j ≠ 2 by omega, show j ≠ 3 by omega]
    | wrDr wdata => simp [getLsbD_srAfter_wrDr _ _ _ hlt, show ¬ j < 2 by omega, show j ≠ 3 by omega]
    | reset => exact absurd rfl hi
    | _ => rfl
  · rw [BitVec.getLsbD_of_ge _ _ (by omega), BitVec.getLsbD_of_ge _ _ (by omega)]

/-- The four flags after a read of DR. -/
theorem flags_srAfter_rdDr (sr : Word) :
    srRxne (srAfter .rdDr sr) = false ∧ srTxe (srAfter .rdDr sr) = srTxe sr ∧
    srUnderrun (srAfter .rdDr sr) = (srUnderrun sr || !srRxne sr) ∧ srOverrun (srAfter .rdDr sr) = srOverrun sr := by
  simp (disch := decide) only [srRxne, srTxe, srUnderrun, srOverrun, getLsbD_srAfter_rdDr]
  simp

/-- The four flags after a write of DR. -/
theorem flags_srAfter_wrDr (wdata sr : Word) :
    srRxne (srAfter (.wrDr wdata) sr) = true ∧ srTxe (srAfter (.wrDr wdata) sr) = (srTxe sr || !srRxne sr) ∧
    srUnderrun (srAfter (.wrDr wdata) sr) = srUnderrun sr ∧
    srOverrun (srAfter (.wrDr wdata) sr) = (srOverrun sr || srRxne sr) := by
  simp (disch := decide) only [srRxne, srTxe, srUnderrun, srOverrun, getLsbD_srAfter_wrDr]
  simp

/-- The four flags after a write of SR. -/
theorem flags_srAfter_wrSr (wdata sr : Word) :
    srRxne (srAfter (.wrSr wdata) sr) = srRxne sr ∧ srTxe (srAfter (.wrSr wdata) sr) = srTxe sr ∧
    srUnderrun (srAfter (.wrSr wdata) sr) = (srUnderrun sr && !wdata.getLsbD 2) ∧
    srOverrun (srAfter (.wrSr wdata) sr) = (srOverrun sr && !wdata.getLsbD 3) := by
  simp (disch := decide) only [srRxne, srTxe, srUnderrun, srOverrun, getLsbD_srAfter_wrSr]
  simp

/-- No operation clears TXE (R17). -/
theorem srAfter_keeps_txe (i : Instr) {sr : Word} (htxe : srTxe sr = true) : srTxe (srAfter i sr) = true := by
  cases i with
  | rdDr =>
    obtain ⟨-, hkept, -, -⟩ := flags_srAfter_rdDr sr
    exact hkept.trans htxe
  | wrDr wdata =>
    obtain ⟨-, hset, -, -⟩ := flags_srAfter_wrDr wdata sr
    rw [hset, htxe, Bool.true_or]
  | wrSr wdata =>
    obtain ⟨-, hkept, -, -⟩ := flags_srAfter_wrSr wdata sr
    exact hkept.trans htxe
  | reset => rw [srAfter_reset]; decide
  | _ => exact htxe

/-! ## What an operation does to each register -/

/-- A read of DR changes the flags alone (R63). -/
@[simp] theorem consumeOrUnderrun_dr (s : State) : (consumeOrUnderrun s).dr = s.dr := by rw [consumeOrUnderrun_eq]
@[simp] theorem consumeOrUnderrun_cs (s : State) : (consumeOrUnderrun s).cs = s.cs := by rw [consumeOrUnderrun_eq]
@[simp] theorem consumeOrUnderrun_trace (s : State) : (consumeOrUnderrun s).trace = s.trace := by rw [consumeOrUnderrun_eq]

/-- What the Transfer does to `sr` (R81, R82). -/
theorem transfer_sr (tx : Byte) (wdata : Word) (s : State) :
    (transfer Config.drOnOverrun tx s).sr = srAfter (.wrDr wdata) s.sr := by
  cases hr : srRxne s.sr
  · simp [transfer_empty hr, exchangeBranch_eq, srAfter, hr]
  · simp [transfer_full hr, overrunBranch_eq, srAfter, hr]

/-- An operation changes `sr` by `srAfter`, whatever else the state holds. -/
theorem exec_sr {i : Instr} {s t : State} (h : exec i s = .next t) : t.sr = srAfter i s.sr := by
  cases i with
  | rdDr => cases h; simp [consumeOrUnderrun_eq, srAfter, srRxne]
  | wrDr wdata => cases h; exact transfer_sr _ wdata s
  | _ => cases h; rfl

/-- `dr` is kept or takes a zero-extended byte (R21). -/
theorem exec_dr {i : Instr} {s t : State} (h : exec i s = .next t) : t.dr = s.dr ∨ ∃ b, t.dr = zext32 b := by
  cases i with
  | rdDr => cases h; exact .inl (consumeOrUnderrun_dr s)
  | wrDr wdata =>
    cases h
    cases hr : srRxne s.sr
    · right; exact ⟨s.linkAnswer (trunc8 wdata), by simp [transfer_empty hr, exchangeBranch_eq]⟩
    · left; simp [transfer_full hr, overrunBranch_eq, Config.drOnOverrun]
  | reset => cases h; exact .inr ⟨0xC#8, rfl⟩
  | _ => cases h; exact .inl rfl

/-! ## The pushed levels -/

theorem driveIrq_lastLineDrive (line : Fin 4) (s : State) :
    lastLineDrive line s.driveIrq.trace = lastLineDrive line s.trace := lastLineDrive_append ..

theorem report_lastLineDrive (line : Fin 4) (s : State) (kind : DiagKind) (offset : Word) (wdata : Option Word) :
    lastLineDrive line (s.report kind offset wdata).trace = lastLineDrive line s.trace := by
  rw [State.report_trace]
  split
  · exact lastLineDrive_append ..
  · rw [List.append_nil]

/-- The Transfer drives no line and keeps `cs` (R94). -/
theorem transfer_lines (p : DrOnOverrun) (tx : Byte) (s : State) :
    (transfer p tx s).cs = s.cs ∧ ∀ line, lastLineDrive line (transfer p tx s).trace = lastLineDrive line s.trace := by
  cases hr : srRxne s.sr
  · simp [transfer_empty hr, exchangeBranch_eq, lastLineDrive]
  · simp [transfer_full hr, overrunBranch_eq, lastLineDrive]

/-- An operation re-derives all four lines, from a `cs` that is a zero-extended byte, or it touches neither `cs` nor a line (R91). -/
theorem exec_lines {i : Instr} {s t : State} (h : exec i s = .next t) :
    (∃ (u : State) (b : Byte), u.cs = zext32 b ∧ t = u.driveLines.answerNothing) ∨
    (t.cs = s.cs ∧ ∀ line, lastLineDrive line t.trace = lastLineDrive line s.trace) := by
  cases i with
  | wrCs wdata => cases h; exact .inl ⟨s.put .cs (zext32 (trunc8 wdata)), trunc8 wdata, rfl, rfl⟩
  | reset => cases h; exact .inl ⟨s.resetRegisters, 0x0#8, rfl, rfl⟩
  | rdDr => cases h; right; simp [lastLineDrive]
  | wrDr wdata => cases h; exact .inr (transfer_lines _ _ s)
  | rdUndef offset => cases h; exact .inr ⟨rfl, fun line => report_lastLineDrive ..⟩
  | wrUndef offset wdata => cases h; exact .inr ⟨rfl, fun line => report_lastLineDrive ..⟩
  | wrCr2 wdata => cases h; exact .inr ⟨rfl, fun line => driveIrq_lastLineDrive ..⟩
  | wrSr wdata => cases h; exact .inr ⟨rfl, fun line => driveIrq_lastLineDrive ..⟩
  | _ => cases h; exact .inr ⟨rfl, fun _ => rfl⟩

/-- Re-evaluating the Interrupt Line leaves the pushed view equal to the function (R107). -/
theorem driveIrq_agree (s : State) : PushedIrqAgrees s.driveIrq := lastIrqDrive_append ..

theorem report_lastIrqDrive (s : State) (kind : DiagKind) (offset : Word) (wdata : Option Word) :
    lastIrqDrive (s.report kind offset wdata).trace = lastIrqDrive s.trace := by
  rw [State.report_trace]
  split
  · exact lastIrqDrive_append ..
  · rw [List.append_nil]

theorem driveLines_lastIrqDrive (s : State) : lastIrqDrive s.driveLines.trace = lastIrqDrive s.trace := by
  simp [lastIrqDrive]

/-- Both branches of the Transfer end by re-evaluating the Interrupt Line (R81, R82). -/
theorem transfer_ends_with_driveIrq (p : DrOnOverrun) (tx : Byte) (s : State) : ∃ u : State, transfer p tx s = u.driveIrq := by
  unfold transfer
  split
  · exact ⟨_, rfl⟩
  · exact ⟨_, rfl⟩

/-- Every operation but RESET keeps the pushed view of `irq` current: it drives the line last, or it changes neither the line's
inputs nor its pushed level (R107). -/
theorem exec_keeps_pushedIrq {i : Instr} {s t : State} (hi : i ≠ .reset) (hs : PushedIrqAgrees s) (h : exec i s = .next t) :
    PushedIrqAgrees t := by
  cases i with
  | rdDr => cases h; exact driveIrq_agree _
  | wrCr2 wdata => cases h; exact driveIrq_agree _
  | wrSr wdata => cases h; exact driveIrq_agree _
  | wrDr wdata =>
    cases h
    obtain ⟨u, hu⟩ := transfer_ends_with_driveIrq Config.drOnOverrun (trunc8 wdata) s
    rw [hu]
    exact driveIrq_agree u
  | rdUndef offset => cases h; exact (report_lastIrqDrive ..).trans hs
  | wrUndef offset wdata => cases h; exact (report_lastIrqDrive ..).trans hs
  | wrCs wdata => cases h; exact (driveLines_lastIrqDrive _).trans hs
  | reset => exact absurd rfl hi
  | _ => cases h; exact hs

/-! ## Invariants: from operations to steps -/

/-- What does not look at the waiting requests and is kept by every operation is kept by every step. -/
theorem step_keeps {P : State → Prop} (hrequests : ∀ s rest, P s → P { s with requests := rest })
    (hexec : ∀ i s t, P s → exec i s = .next t → P t) {s t : State} (hs : P s) (h : step s = .next t) : P t := by
  obtain ⟨-, hidle⟩ | ⟨r, rest, i, -, -, hrun⟩ | ⟨r, rest, why, -, -, hrefused⟩ := step_cases s
  · cases hidle.symm.trans h
    exact hs
  · exact hexec i _ t (hrequests s rest hs) (hrun.symm.trans h)
  · cases hrefused.symm.trans h

/-- Every operation keeps the invariant of R22. -/
theorem exec_keeps_regInv {i : Instr} {s t : State} (hs : RegInv s) (h : exec i s = .next t) : RegInv t := by
  obtain ⟨htxe, hhigh, hdr, hcs⟩ := hs
  refine ⟨?_, ?_, ?_, ?_⟩
  · rw [exec_sr h]
    exact srAfter_keeps_txe i htxe
  · rw [exec_sr h]
    by_cases hi : i = .reset
    · rw [hi, srAfter_reset]; decide
    · rw [extractLsb'_high_eq_zero_iff] at hhigh ⊢
      intro j hj
      rw [getLsbD_srAfter_high hi _ hj, hhigh j hj]
  · obtain hkept | ⟨b, hb⟩ := exec_dr h
    · rw [hkept, hdr]
    · rw [hb, zext32_high]
  · obtain ⟨u, b, hb, rfl⟩ | ⟨hkept, -⟩ := exec_lines h
    · rw [State.answerNothing_cs, State.driveLines_cs, hb, zext32_high]
    · rw [hkept, hcs]

/-- Every operation keeps the pushed view of the lines current. -/
theorem exec_keeps_pushedLines {i : Instr} {s t : State} (hs : PushedLinesAgree s) (h : exec i s = .next t) :
    PushedLinesAgree t := by
  obtain ⟨u, -, -, rfl⟩ | ⟨hcs, hdrives⟩ := exec_lines h
  · exact driveLines_agree u
  · intro line
    rw [hdrives line, hcs, hs line]

/-- Settles O34: no operation breaks the invariant, and it does not look at the requests. -/
theorem everyStepKeepsTheInvariant : Obligations.EveryStepKeepsTheInvariant :=
  fun _ _ hs h => step_keeps (fun _ _ hs => hs) (fun _ _ _ => exec_keeps_regInv) hs h

/-- Settles O50: an operation re-derives all four lines or leaves `cs` and their pushed levels alone. -/
theorem pushedLineLevelsStayCurrent : Obligations.PushedLineLevelsStayCurrent :=
  ⟨by decide, fun _ _ hs h => step_keeps (fun _ _ hs => hs) (fun _ _ _ => exec_keeps_pushedLines) hs h⟩

/-! ## Who sets and who clears the bits of `sr` -/

/-- Settles O31: the next `sr` is `srAfter` of the old one, flag by flag for the four operations that change it. -/
theorem statusBitsChangeOnlyAsStated : Obligations.StatusBitsChangeOnlyAsStated := by
  intro i s
  obtain ⟨t, ht⟩ := exec_isNext i s
  refine ⟨t, ht, ?_⟩
  rw [exec_sr ht]
  cases i with
  | rdDr =>
    obtain ⟨hrxne, htxe, hunderrun, hoverrun⟩ := flags_srAfter_rdDr s.sr
    exact ⟨hrxne, htxe, hunderrun, hoverrun, fun j => getLsbD_srAfter_high (by simp) s.sr⟩
  | wrDr wdata =>
    obtain ⟨hrxne, htxe, hunderrun, hoverrun⟩ := flags_srAfter_wrDr wdata s.sr
    exact ⟨hrxne, htxe, hunderrun, hoverrun, fun j => getLsbD_srAfter_high (by simp) s.sr⟩
  | wrSr wdata =>
    obtain ⟨hrxne, htxe, hunderrun, hoverrun⟩ := flags_srAfter_wrSr wdata s.sr
    exact ⟨hrxne, htxe, hunderrun, hoverrun, fun j => getLsbD_srAfter_high (by simp) s.sr⟩
  | reset =>
    rw [srAfter_reset]
    exact ⟨rfl, rfl, rfl, rfl, (extractLsb'_high_eq_zero_iff 0x2#32).1 (by decide)⟩
  | _ => exact ⟨rfl, rfl, rfl, rfl, fun _ _ => rfl⟩

/-! ## The values of `sr` in reachable states -/

/-- Every reachable state meets the invariant. -/
theorem Reachable.regInv {s : State} (h : Reachable s) : RegInv s := by
  induction h with
  | reset => decide
  | after i _ hexec ih => exact exec_keeps_regInv ih hexec

/-- With TXE 1 and every bit from 4 up 0, three bits are left free: the eight values of R22 (b). -/
theorem regInv_sr_mem {s : State} (h : RegInv s) : s.sr ∈ reachableStatus := by
  obtain ⟨htxe, hhigh, -, -⟩ := h
  have hnibble : ∀ n : Nibble, n.getLsbD 1 = true → n.setWidth 32 ∈ reachableStatus := by decide
  have hlow : s.sr = (s.sr.setWidth 4).setWidth 32 := by
    apply word_ext
    intro j hj
    by_cases h4 : j < 4
    · simp [hj, h4]
    · simp [BitVec.getLsbD_setWidth, h4, (extractLsb'_high_eq_zero_iff s.sr).1 hhigh j (by omega)]
  rw [hlow]
  exact hnibble _ (by simpa using htxe)

/-- Some reachable state has this value in `sr`. -/
def StatusReached (v : Word) : Prop := ∃ s, Reachable s ∧ s.sr = v

/-- What one more operation makes of a reached value of `sr` is reached too. -/
theorem StatusReached.after {v : Word} (h : StatusReached v) (i : Instr) : StatusReached (srAfter i v) := by
  obtain ⟨s, hs, rfl⟩ := h
  obtain ⟨t, ht⟩ := exec_isNext i s
  exact ⟨t, hs.after i ht, exec_sr ht⟩

/-- Each of the eight values is reached, along the transitions of R85. -/
theorem statusReached_all : ∀ v ∈ reachableStatus, StatusReached v := by
  have h2 : StatusReached 0x2#32 := ⟨State.reset, .reset, rfl⟩
  have h3 : StatusReached 0x3#32 := h2.after (.wrDr 0x0#32)
  have h6 : StatusReached 0x6#32 := h2.after .rdDr
  have h7 : StatusReached 0x7#32 := h6.after (.wrDr 0x0#32)
  have hB : StatusReached 0xB#32 := h3.after (.wrDr 0x0#32)
  have hA : StatusReached 0xA#32 := hB.after .rdDr
  have hE : StatusReached 0xE#32 := hA.after .rdDr
  have hF : StatusReached 0xF#32 := hE.after (.wrDr 0x0#32)
  simp [reachableStatus, h2, h3, h6, h7, hA, hB, hE, hF]

/-- Settles O36: the invariant leaves only the eight values, and a path from reset leads to each. -/
theorem reachableStatusValues : Obligations.ReachableStatusValues :=
  ⟨fun _ h => regInv_sr_mem h.regInv, statusReached_all⟩

/-! ## CR1 -/

/-- With another value in CR1 an operation leads to the same state but for CR1, and for the answer of `RD_CR1` (R13, R131). -/
theorem exec_put_cr1 {i : Instr} {s t : State} (h : exec i s = .next t) (v : Word) :
    ∃ cr1 rdata, exec i (s.put .cr1 v) = .next { t with cr1, rdata } ∧ (i ≠ .rdCr1 → rdata = t.rdata) := by
  cases i with
  | rdCr1 => cases h; exact ⟨v, some v, rfl, fun hne => absurd rfl hne⟩
  | wrCr1 wdata => cases h; exact ⟨wdata, none, rfl, fun _ => rfl⟩
  | reset => cases h; exact ⟨Config.resetCr1, none, rfl, fun _ => rfl⟩
  | rdDr =>
    cases h
    refine ⟨v, some s.dr, ?_, fun _ => rfl⟩
    simp only [exec, execRdDr, consumeOrUnderrun_eq]
    rfl
  | wrDr wdata =>
    cases h
    refine ⟨v, none, ?_, fun _ => rfl⟩
    simp only [exec, execWrDr]
    cases hr : srRxne s.sr
    · rw [transfer_empty hr, transfer_empty (s := s.put .cr1 v) hr, exchangeBranch_eq, exchangeBranch_eq]
      rfl
    · rw [transfer_full hr, transfer_full (s := s.put .cr1 v) hr, overrunBranch_eq, overrunBranch_eq]
      rfl
  | _ => cases h; exact ⟨v, _, rfl, fun _ => rfl⟩

/-- Settles O40: the two next states differ in CR1, and in the answer of `RD_CR1`, alone. -/
theorem cr1HasNoEffect : Obligations.Cr1HasNoEffect := by
  intro i s v
  obtain ⟨t, ht⟩ := exec_isNext i s
  obtain ⟨cr1, rdata, ht', hrdata⟩ := exec_put_cr1 ht v
  exact ⟨t, { t with cr1, rdata }, ht, ht', rfl, rfl, rfl, rfl, rfl, rfl, rfl, ⟨rfl, fun _ => rfl⟩, hrdata⟩

/-! ## Reset -/

/-- The five registers after a reset from any state (R26, R120). -/
theorem exec_reset_registers {s t : State} (h : exec .reset s = .next t) :
    t.cr1 = 0x0#32 ∧ t.cr2 = 0x0#32 ∧ t.sr = 0x2#32 ∧ t.dr = 0xC#32 ∧ t.cs = 0x0#32 := by
  cases h
  exact ⟨rfl, rfl, rfl, rfl, rfl⟩

/-- The Interrupt Line is a function of `cr2` and `sr` (R24, R121). -/
theorem State.irq_eq (s : State) : s.irq = irqLevel s.cr2 s.sr := rfl

/-- A Chip-Select Line is a function of `cs` (R24). -/
theorem State.line_eq (s : State) (line : Fin 4) : s.line line = csLevel s.cs line := rfl

/-- `irq` is 0 after a reset from any state (R121). -/
theorem exec_reset_irq {s t : State} (h : exec .reset s = .next t) : t.irq = false := by
  obtain ⟨-, hcr2, hsr, -, -⟩ := exec_reset_registers h
  rw [State.irq_eq, hcr2, hsr]
  decide

/-- A reset drives the four lines and not `irq` (R107). -/
theorem exec_reset_lastIrqDrive {s t : State} (h : exec .reset s = .next t) : lastIrqDrive t.trace = lastIrqDrive s.trace := by
  cases h
  exact driveLines_lastIrqDrive s.resetRegisters

/-- Settles O51: every operation but RESET re-evaluates `irq` or leaves its inputs alone; RESET changes the inputs and does not drive. -/
theorem pushedIrqLevelStaysCurrentExceptAcrossReset : Obligations.PushedIrqLevelStaysCurrentExceptAcrossReset := by
  refine ⟨by decide, fun i s hi hs => ?_, fun s => ?_⟩
  · obtain ⟨t, ht⟩ := exec_isNext i s
    exact ⟨t, ht, exec_keeps_pushedIrq hi hs ht⟩
  · obtain ⟨t, ht⟩ := exec_isNext .reset s
    have hpushed := exec_reset_lastIrqDrive ht
    exact ⟨t, ht, hpushed, hpushed, exec_reset_irq ht, rfl⟩

/-- Settles O12: every field and output is a function of the five registers, whose reset values are known. -/
theorem resetLeavesTheStatedValues : Obligations.ResetLeavesTheStatedValues := by
  refine ⟨fun s => ?_, by decide⟩
  obtain ⟨t, ht⟩ := exec_isNext .reset s
  obtain ⟨hcr1, hcr2, hsr, hdr, hcs⟩ := exec_reset_registers ht
  refine ⟨t, ht, hcr1, hcr2, hsr, hdr, hcs, ?_⟩
  simp only [State.irq_eq, State.line_eq, hcr1, hcr2, hsr, hdr, hcs]
  decide

/-- Settles O35: the invariant speaks of `sr`, `dr` and `cs`, whose reset values meet it. -/
theorem resetMeetsTheInvariant : Obligations.ResetMeetsTheInvariant := by
  refine ⟨by decide, fun s t h => ?_⟩
  obtain ⟨-, -, hsr, hdr, hcs⟩ := exec_reset_registers h
  simp only [RegInv, hsr, hdr, hcs]
  decide

end Sys2Proof.Machine
end

section
/-! PROOFS. The register window and its accesses (spec/20_memory.md): what a request runs, what bytes and host addresses decode to,
which offsets of the window an operation changes, and which accesses are idempotent. -/

namespace Sys2Proof.Machine

/-! ## A step and the requests behind it -/

/-- Settles O1: of the three things a step can be, only running the decoded operation fits a request that decodes. -/
theorem stepRunsTheOldestRequest : Obligations.StepRunsTheOldestRequest := by
  intro s r rest i htaken hdecode
  obtain ⟨hnone, -⟩ | ⟨r', rest', j, htaken', hdecode', hrun⟩ | ⟨r', rest', why, htaken', hreject, -⟩ := step_cases s
  · exact absurd (htaken.symm.trans hnone) (List.cons_ne_nil r rest)
  · cases htaken.symm.trans htaken'
    cases hdecode.symm.trans hdecode'
    exact hrun
  · cases htaken.symm.trans htaken'
    cases hdecode.symm.trans hreject

/-- A step refuses a request that has no instruction (R35). -/
theorem step_of_decode_error {s : State} {r : Request} {rest : List Request} {why : Reject}
    (htaken : s.requests = r :: rest) (hreject : decodeRequest r = .error why) : step s = .refused (.undecodable why) := by
  simp only [step, htaken, hreject]

/-- A request that has an instruction gives a next state. -/
theorem step_isNext_of_decode_ok {s : State} {r : Request} {rest : List Request} {i : Instr}
    (htaken : s.requests = r :: rest) (hdecode : decodeRequest r = .ok i) : ∃ t, step s = .next t := by
  rw [stepRunsTheOldestRequest s r rest i htaken hdecode]
  exact exec_isNext i _

/-- The low 32 bits of a datum are those of its remainder (R35, R48). -/
theorem trunc32_mod (data : Nat) : trunc32 (data % 2 ^ 32) = trunc32 data := by
  apply BitVec.eq_of_toNat_eq
  simp [trunc32]

/-- Settles O3: the width alone decides whether a request decodes, and of the datum `trunc32` takes the low 32 bits. -/
theorem onlyThirtyTwoBitAccessesHaveAMeaning : Obligations.OnlyThirtyTwoBitAccessesHaveAMeaning := by
  refine ⟨fun s rest code offset data => ⟨fun htaken => ?_, fun htaken => ?_⟩,
    fun s rest offset data => ⟨fun htaken => ?_, fun htaken => ?_⟩, fun offset data => ?_, fun s data => ?_, fun _ => rfl⟩
  · exact step_of_decode_error htaken rfl
  · exact step_of_decode_error htaken rfl
  · exact step_isNext_of_decode_ok htaken rfl
  · exact step_isNext_of_decode_ok htaken rfl
  · rw [decodeRequest, decodeRequest, trunc32_mod]
  · exact ⟨.wrCr1 (trunc32 data), (s.put .cr1 (trunc32 data)).answerNothing, rfl, rfl, BitVec.toNat_ofNat data 32⟩

/-- The waiting requests play no part in an operation: with others waiting it leads to the same state but for them. -/
theorem exec_with_requests {i : Instr} {s t : State} (h : exec i s = .next t) (waiting : List Request) :
    exec i { s with requests := waiting } = .next { t with requests := waiting } := by
  cases i with
  | rdDr =>
    cases h
    simp only [exec, execRdDr, consumeOrUnderrun_eq]
    rfl
  | wrDr wdata =>
    cases h
    simp only [exec, execWrDr]
    cases hr : srRxne s.sr
    · rw [transfer_empty hr, transfer_empty (s := { s with requests := waiting }) hr, exchangeBranch_eq, exchangeBranch_eq]
      rfl
    · rw [transfer_full hr, transfer_full (s := { s with requests := waiting }) hr, overrunBranch_eq, overrunBranch_eq]
      rfl
  | _ => cases h; rfl

/-- The request of a well-formed operation decodes to it (R51, R52). -/
theorem decodeRequest_requestOf {i : Instr} (h : i.wellFormed = true) : decodeRequest (requestOf i) = .ok i := by
  cases i with
  | rdCr1 => exact Laws.RequestRoundTrip.rdCr1 h
  | rdCr2 => exact Laws.RequestRoundTrip.rdCr2 h
  | rdSr => exact Laws.RequestRoundTrip.rdSr h
  | rdDr => exact Laws.RequestRoundTrip.rdDr h
  | rdCs => exact Laws.RequestRoundTrip.rdCs h
  | rdUndef offset => exact Laws.RequestRoundTrip.rdUndef offset h
  | wrCr1 wdata => exact Laws.RequestRoundTrip.wrCr1 wdata h
  | wrCr2 wdata => exact Laws.RequestRoundTrip.wrCr2 wdata h
  | wrSr wdata => exact Laws.RequestRoundTrip.wrSr wdata h
  | wrDr wdata => exact Laws.RequestRoundTrip.wrDr wdata h
  | wrCs wdata => exact Laws.RequestRoundTrip.wrCs wdata h
  | wrUndef offset wdata => exact Laws.RequestRoundTrip.wrUndef offset wdata h
  | reset => exact Laws.RequestRoundTrip.reset h

/-- A run begins with its first step, where that gives a next state. -/
theorem core_run_succ_of_step {s t : State} (h : step s = .next t) (k : Nat) :
    core.run (k + 1) s = core.run k t := by
  simp only [Host.Core.run, core, h]

/-- A sequence begins with its first operation, where that gives a next state. -/
theorem execAll_cons_of_exec {i : Instr} {s t : State} (h : exec i s = .next t) (is : List Instr) :
    execAll (i :: is) s = execAll is t := by
  simp only [execAll, h]

/-- Settles O4, by induction on the operations: the first step runs the first of them and leaves the requests of the others. -/
theorem requestsRunInOrder : Obligations.RequestsRunInOrder := by
  intro is rest
  induction is with
  | nil =>
    intro s _ hrequests
    obtain rfl : rest = s.requests := hrequests.symm
    rfl
  | cons i is ih =>
    intro s hwf hrequests
    obtain ⟨hwfi, hwfis⟩ := List.forall_mem_cons.1 hwf
    obtain ⟨t, ht⟩ := exec_isNext i { s with requests := is.map requestOf ++ rest }
    have hstep : step s = .next t :=
      (stepRunsTheOldestRequest s _ _ i hrequests (decodeRequest_requestOf hwfi)).trans ht
    have hexec : exec i { s with requests := rest } = .next { t with requests := rest } := exec_with_requests ht rest
    rw [execAll_cons_of_exec hexec]
    exact (core_run_succ_of_step hstep is.length).trans (ih t hwfis (exec_requests ht))

/-! ## The operation of a direction and an offset -/

/-- The read or the write of a register (R31, R51). -/
def accessOf (isWrite : Bool) (r : Reg) (wdata : Word) : Instr :=
  match isWrite, r with
  | false, .cr1 => .rdCr1
  | false, .cr2 => .rdCr2
  | false, .sr => .rdSr
  | false, .dr => .rdDr
  | false, .cs => .rdCs
  | true, .cr1 => .wrCr1 wdata
  | true, .cr2 => .wrCr2 wdata
  | true, .sr => .wrSr wdata
  | true, .dr => .wrDr wdata
  | true, .cs => .wrCs wdata

theorem accessOf_wellFormed (isWrite : Bool) (r : Reg) (wdata : Word) : (accessOf isWrite r wdata).wellFormed = true := by
  cases isWrite <;> cases r <;> rfl

/-- The key of a register's offset decodes to that register's read or write (R51, R52). -/
theorem decodeKey_regOffset (isWrite : Bool) (r : Reg) (wdata : Word) :
    decodeKey (keyOf isWrite (regOffset r)) wdata = accessOf isWrite r wdata := by
  cases isWrite <;> cases r <;> rfl

/-- `regAt` finds a register at its own offset alone (R31, R32). -/
theorem regOffset_of_regAt {offset : Word} {r : Reg} (h : regAt offset = some r) : offset = regOffset r := by
  have hfound := List.find?_some h
  exact (beq_iff_eq.1 hfound).symm

/-- An undefined offset is no register's (R32). -/
theorem undefinedOffset_iff (offset : Word) : undefinedOffset offset = true ↔ ∀ r, offset ≠ regOffset r := by
  constructor
  · rintro hundef r rfl
    cases r <;> exact absurd hundef (by decide)
  · intro hne
    cases hreg : regAt offset with
    | none => rw [undefinedOffset, hreg, Option.isNone_none]
    | some r => exact absurd (regOffset_of_regAt hreg) (hne r)

/-- A key is its direction and its offset (R46). -/
theorem keyOf_fields (k : Key) : keyOf (keyIsWrite k) (keyOffset k) = k := by
  have hdir : BitVec.ofBool (keyIsWrite k) = k.extractLsb' 32 1 := by
    ext j hj
    obtain rfl : j = 0 := by omega
    simp [keyIsWrite]
  rw [keyOf, hdir, keyOffset]
  exact BitVec.extractLsb'_append_extractLsb'

/-- Every key and datum select a well-formed operation (R52): the access of a register, or one at an undefined offset. -/
theorem decodeKey_wellFormed (k : Key) (wdata : Word) : (decodeKey k wdata).wellFormed = true := by
  rw [← keyOf_fields k]
  cases hreg : regAt (keyOffset k) with
  | some r =>
    rw [regOffset_of_regAt hreg, decodeKey_regOffset]
    exact accessOf_wellFormed _ r wdata
  | none =>
    have hundef : undefinedOffset (keyOffset k) = true := by rw [undefinedOffset, hreg, Option.isNone_none]
    rw [Laws.RequestRoundTrip.decodeKey_undefined _ _ _ hundef]
    cases keyIsWrite k <;> simp [Instr.wellFormed, Instr.illFormed, hundef]

theorem decodeRequest_wellFormed {r : Request} {i : Instr} (h : decodeRequest r = .ok i) : i.wellFormed = true := by
  match r, h with
  | .read .word32 _, h => cases h; exact decodeKey_wellFormed _ _
  | .write .word32 _ _, h => cases h; exact decodeKey_wellFormed _ _
  | .reset, h => cases h; rfl

/-! ## Frames and bytes -/

/-- A frame is put together again from its nine bytes. -/
theorem frameOfBytes_extracts (f : BitVec 72) :
    frameOfBytes (f.extractLsb' 0 8) (f.extractLsb' 8 8) (f.extractLsb' 16 8) (f.extractLsb' 24 8) (f.extractLsb' 32 8)
      (f.extractLsb' 40 8) (f.extractLsb' 48 8) (f.extractLsb' 56 8) (f.extractLsb' 64 8) = f := by
  simp only [frameOfBytes, BitVec.extractLsb'_append_extractLsb'_eq_extractLsb']
  exact BitVec.extractLsb'_eq_self

/-- The bytes of a frame decode to what its request decodes to, the bytes after it left. -/
theorem decode_bytesOfFrame (f : BitVec 72) (rest : List Byte) :
    decode (bytesOfFrame f ++ rest) = (decodeRequest (requestOfFrame f)).map (·, rest) := by
  simp only [bytesOfFrame, List.cons_append, List.nil_append, decode, frameOfBytes_extracts]
  cases decodeRequest (requestOfFrame f) <;> rfl

/-- Bytes that decode are the decoding of some request. -/
theorem decodeRequest_of_decode {bytes rest : List Byte} {i : Instr} (h : decode bytes = .ok (i, rest)) :
    ∃ r, decodeRequest r = .ok i := by
  unfold decode at h
  split at h
  · split at h
    · rename_i hdecode
      cases h
      exact ⟨_, hdecode⟩
    · cases h
  · cases h

/-- The operation of a frame of form 0: that of its key, with its datum where it is a write (R46). -/
theorem decodeRequest_transactionFrame {f : BitVec 72} (hform : frameForm f = 0#7) :
    decodeRequest (requestOfFrame f) =
      .ok (decodeKey (frameKey f) (if keyIsWrite (frameKey f) then frameData f else 0#32)) := by
  have hkey := keyOf_fields (frameKey f)
  rw [requestOfFrame, hform, if_neg (by decide), widthOfForm, if_pos rfl]
  cases hdir : keyIsWrite (frameKey f) <;> rw [hdir] at hkey
  · simp [decodeRequest, hkey]
  · simp [decodeRequest, hkey, Laws.RequestRoundTrip.trunc32_toNat]

/-- A frame of form 1 is the reset request. -/
theorem decodeRequest_resetFrame {f : BitVec 72} (hform : frameForm f = 1#7) :
    decodeRequest (requestOfFrame f) = .ok .reset := by
  rw [requestOfFrame, resetForm, if_pos hform, decodeRequest]

/-- A frame of any other form is an access of another width, in either direction (R35). -/
theorem decodeRequest_otherFrame {f : BitVec 72} (hword : frameForm f ≠ 0#7) (hreset : frameForm f ≠ 1#7) :
    decodeRequest (requestOfFrame f) = .error (.accessWidth (.other (frameForm f).toNat)) := by
  rw [requestOfFrame, resetForm, if_neg hreset, widthOfForm, if_neg hword]
  split <;> rfl

/-- Settles O9: whatever decodes is the access of a key or RESET, and the form of a frame chooses between the three. -/
theorem decodedOperationsAreWellFormed : Obligations.DecodedOperationsAreWellFormed := by
  refine ⟨fun bytes rest i h => ?_, fun f rest => ?_⟩
  · obtain ⟨r, hr⟩ := decodeRequest_of_decode h
    exact decodeRequest_wellFormed hr
  · rw [decode_bytesOfFrame]
    refine ⟨fun hword => ?_, fun hreset => ?_, fun hword hreset => ?_⟩
    · rw [decodeRequest_transactionFrame hword]; rfl
    · rw [decodeRequest_resetFrame hreset]; rfl
    · rw [decodeRequest_otherFrame hword hreset]; rfl

/-! ## Host loads and stores -/

/-- An address in the window reaches the block as its distance from BASE (R30). -/
theorem windowOffset_add {w : Window} {offset : Nat} (h : offset < w.bytes) :
    windowOffset w (w.base + offset) = some (BitVec.ofNat 32 offset) := by
  rw [windowOffset, if_pos ⟨by omega, by omega⟩, Nat.add_sub_cancel_left]

/-- An address outside the window does not reach the block (R30). -/
theorem windowOffset_outside {w : Window} {addr : Nat} (h : addr < w.base ∨ w.base + w.bytes ≤ addr) :
    windowOffset w addr = none :=
  if_neg (by omega)

theorem memRead_add {w : Window} {offset : Nat} (h : offset < w.bytes) (n : Nat) :
    memRead w (w.base + offset) n = some (.read (widthOfSize n) (BitVec.ofNat 32 offset)) := by
  rw [memRead, windowOffset_add h, Option.map_some]

theorem memWrite_add {w : Window} {offset : Nat} (h : offset < w.bytes) (n v : Nat) :
    memWrite w (w.base + offset) n v = some (.write (widthOfSize n) (BitVec.ofNat 32 offset) v) := by
  rw [memWrite, windowOffset_add h, Option.map_some]

/-- A legal window holds the five registers and no more offsets than a key has (R30, R46). -/
theorem bounds_of_window_ok {w : Window} (h : w.ok = true) : 0x14 ≤ w.bytes ∧ w.bytes ≤ 2 ^ 32 := by
  simp only [Window.ok, Bool.and_eq_true, decide_eq_true_eq] at h
  obtain ⟨⟨-, hmin⟩, hmax⟩ := h
  exact ⟨hmin, hmax⟩

/-- The offset of a register lies in every legal window. -/
theorem regOffset_lt_bytes {w : Window} (h : w.ok = true) (r : Reg) : (regOffset r).toNat < w.bytes := by
  have hmin := (bounds_of_window_ok h).1
  cases r <;> simp only [regOffset, BitVec.toNat_ofNat] <;> omega

/-- A 4-byte load at a register's offset is that register's read (R55). -/
theorem load_register {w : Window} (h : w.ok = true) (r : Reg) :
    (memRead w (w.base + (regOffset r).toNat) 4).map decodeRequest = some (.ok (accessOf false r 0#32)) := by
  rw [memRead_add (regOffset_lt_bytes h r), BitVec.ofNat_toNat, BitVec.setWidth_eq, Option.map_some, ← decodeKey_regOffset]
  rfl

/-- A 4-byte store at a register's offset is that register's write (R55). -/
theorem store_register {w : Window} (h : w.ok = true) (r : Reg) (v : Word) :
    (memWrite w (w.base + (regOffset r).toNat) 4 v.toNat).map decodeRequest = some (.ok (accessOf true r v)) := by
  rw [memWrite_add (regOffset_lt_bytes h r), BitVec.ofNat_toNat, BitVec.setWidth_eq, Option.map_some, ← decodeKey_regOffset,
    widthOfSize, if_pos rfl, decodeRequest, Laws.RequestRoundTrip.trunc32_toNat]

/-- In a window of at most 2^32 bytes no offset is mistaken for another, so one that is no register's is undefined (log entry 11). -/
theorem undefinedOffset_ofNat {offset : Nat} (hlt : offset < 2 ^ 32) (hne : ∀ r, offset ≠ (regOffset r).toNat) :
    undefinedOffset (BitVec.ofNat 32 offset) = true := by
  rw [undefinedOffset_iff]
  intro r heq
  apply hne r
  rw [← heq, BitVec.toNat_ofNat, Nat.mod_eq_of_lt hlt]

/-- Settles O11: the request an address makes is the one of its distance from BASE, and the decoder reads all 32 bits of that. -/
theorem hostLoadsAndStoresReachTheirRegister : Obligations.HostLoadsAndStoresReachTheirRegister := by
  intro w hok
  refine ⟨fun v => ?_, fun offset v hlt h0 h4 h8 hC h10 => ?_, fun offset n v hlt hn => ?_, fun addr n v houtside => ?_⟩
  · exact ⟨load_register hok .cr1, load_register hok .cr2, load_register hok .sr, load_register hok .dr,
      load_register hok .cs, store_register hok .cr1 v, store_register hok .cr2 v, store_register hok .sr v,
      store_register hok .dr v, store_register hok .cs v⟩
  · have hne : ∀ r, offset ≠ (regOffset r).toNat
      | .cr1 => h0 | .cr2 => h4 | .sr => h8 | .dr => hC | .cs => h10
    have hundef := undefinedOffset_ofNat (hlt.trans_le (bounds_of_window_ok hok).2) hne
    rw [memRead_add hlt, memWrite_add hlt]
    simp [widthOfSize, decodeRequest, Laws.RequestRoundTrip.decodeKey_undefined _ _ _ hundef,
      Laws.RequestRoundTrip.trunc32_toNat]
  · rw [memRead_add hlt, memWrite_add hlt, widthOfSize, if_neg hn]
    exact ⟨rfl, rfl⟩
  · rw [memRead, memWrite, windowOffset_outside houtside]
    exact ⟨rfl, rfl⟩

/-! ## The frame of an operation over the window -/

/-- The registers an operation may change (R66, R76, R120). -/
def registersWritten : Instr → List Reg
  | .rdCr1 | .rdCr2 | .rdSr | .rdCs | .rdUndef _ | .wrUndef _ _ => []
  | .rdDr | .wrSr _ => [.sr]
  | .wrCr1 _ => [.cr1]
  | .wrCr2 _ => [.cr2]
  | .wrDr _ => [.sr, .dr]
  | .wrCs _ => [.cs]
  | .reset => allRegs

/-- The Transfer touches SR and DR alone (R80). -/
theorem transfer_get {r : Reg} (hsr : r ≠ .sr) (hdr : r ≠ .dr) (tx : Byte) (p : DrOnOverrun) (s : State) :
    (transfer p tx s).get r = s.get r := by
  have hbranches : ∀ sr dr answers trace,
      State.get { s with sr := sr, dr := dr, linkAnswers := answers, trace := trace } r = s.get r := fun sr dr _ _ =>
    (State.get_put_other (s.put .sr sr) .dr r dr hdr).trans (State.get_put_other s .sr r sr hsr)
  cases hr : srRxne s.sr
  · rw [transfer_empty hr, exchangeBranch_eq]
    exact hbranches ..
  · rw [transfer_full hr, overrunBranch_eq]
    exact hbranches ..

/-- An operation keeps every register it does not write. -/
theorem exec_keeps_get {i : Instr} {s t : State} (h : exec i s = .next t) {r : Reg} (hr : r ∉ registersWritten i) :
    t.get r = s.get r := by
  cases i with
  | wrCr1 wdata => cases h; exact State.get_put_other s .cr1 r wdata (List.mem_singleton.not.1 hr)
  | wrCr2 wdata => cases h; exact State.get_put_other s .cr2 r wdata (List.mem_singleton.not.1 hr)
  | wrSr wdata => cases h; exact State.get_put_other s .sr r _ (List.mem_singleton.not.1 hr)
  | wrCs wdata => cases h; exact State.get_put_other s .cs r _ (List.mem_singleton.not.1 hr)
  | rdDr =>
    cases h
    rw [consumeOrUnderrun_eq]
    exact State.get_put_other s .sr r _ (List.mem_singleton.not.1 hr)
  | wrDr wdata =>
    cases h
    obtain ⟨hsr, hdr⟩ := not_or.1 (List.mem_pair.not.1 hr)
    exact transfer_get hsr hdr _ _ s
  | reset => exact absurd (show r ∈ allRegs by cases r <;> decide) hr
  | _ => cases h; rfl

/-- The window holds the same at an offset in two states that agree on the register there, if there is one (R31). -/
theorem window_congr {s t : State} {offset : Word} (h : ∀ r, offset = regOffset r → t.get r = s.get r) :
    t.window offset = s.window offset := by
  unfold State.window
  cases hreg : regAt offset with
  | none => rfl
  | some r => exact h r (regOffset_of_regAt hreg)

/-- An operation keeps what the window holds at every offset but those of the registers it writes. -/
theorem exec_keeps_window {i : Instr} {s t : State} (h : exec i s = .next t) {offset : Word}
    (hoffset : ∀ r ∈ registersWritten i, offset ≠ regOffset r) : t.window offset = s.window offset :=
  window_congr fun r heq => exec_keeps_get h fun hr => hoffset r hr heq

/-- Settles O29: in each clause the excluded offsets are those of the registers the operation writes. -/
theorem windowFrame : Obligations.WindowFrame := by
  intro s t i w offset h
  refine ⟨?_, ?_, ?_, ?_, ?_, ?_, ?_, ?_⟩
  · rintro rfl hcr1; exact exec_keeps_window h (List.forall_mem_singleton.2 hcr1)
  · rintro rfl hcr2; exact exec_keeps_window h (List.forall_mem_singleton.2 hcr2)
  · rintro rfl hsr; exact exec_keeps_window h (List.forall_mem_singleton.2 hsr)
  · rintro rfl hdr hsr
    exact exec_keeps_window h (List.forall_mem_cons.2 ⟨hsr, List.forall_mem_singleton.2 hdr⟩)
  · rintro rfl hcs; exact exec_keeps_window h (List.forall_mem_singleton.2 hcs)
  · rintro rfl hsr; exact exec_keeps_window h (List.forall_mem_singleton.2 hsr)
  · rintro (rfl | rfl | rfl | rfl) <;> exact exec_keeps_window h (List.forall_mem_nil _)
  · rintro ⟨o, rfl | rfl⟩ <;> exact exec_keeps_window h (List.forall_mem_nil _)

/-! ## Repeated accesses -/

/-- An operation that writes no register leaves all five as they were. -/
theorem sameRegisters_of_writes_none {i : Instr} {s t : State} (h : exec i s = .next t) (hnone : registersWritten i = []) :
    SameRegisters s t := by
  have hkept : ∀ r, t.get r = s.get r := fun r => exec_keeps_get h (by rw [hnone]; exact List.not_mem_nil)
  exact ⟨hkept .cr1, hkept .cr2, hkept .sr, hkept .dr, hkept .cs⟩

/-- A read other than `RD_DR` writes no register (R66). -/
theorem read_writes_none {i : Instr} (hread : isRead i = true) (hi : i ≠ .rdDr) : registersWritten i = [] := by
  cases i with
  | rdCr1 | rdCr2 | rdSr | rdCs | rdUndef _ => rfl
  | rdDr => exact absurd rfl hi
  | _ => exact absurd hread Bool.false_ne_true

/-- What a read returns depends on the five registers alone (R49, R66). -/
theorem read_rdata_congr {i : Instr} {s s' t t' : State} (hread : isRead i = true) (hsame : SameRegisters s s')
    (h : exec i s = .next t) (h' : exec i s' = .next t') : t'.rdata = t.rdata := by
  obtain ⟨hcr1, hcr2, hsr, hdr, hcs⟩ := hsame
  cases i with
  | rdCr1 => cases h; cases h'; exact congrArg some hcr1
  | rdCr2 => cases h; cases h'; exact congrArg some hcr2
  | rdSr => cases h; cases h'; exact congrArg some hsr
  | rdDr => cases h; cases h'; exact congrArg some hdr
  | rdCs => cases h; cases h'; exact congrArg some hcs
  | rdUndef offset => cases h; cases h'; rfl
  | _ => exact absurd hread Bool.false_ne_true

/-- `RD_DR` returns `dr` and keeps it, in both branches (R63). -/
theorem exec_rdDr_data {s t : State} (h : exec .rdDr s = .next t) : t.rdata = some s.dr ∧ t.dr = s.dr := by
  cases h
  exact ⟨rfl, consumeOrUnderrun_dr s⟩

/-- Clearing the same bits again changes nothing more. -/
theorem clearBits_clearBits (v mask : Word) : clearBits (clearBits v mask) mask = clearBits v mask := by
  rw [clearBits, clearBits, BitVec.and_assoc, BitVec.and_self]

/-- A write other than `WR_DR` stores the same when repeated (R36). -/
theorem write_again {i : Instr} {s t u : State} (hwrite : isWrite i = true) (hi : ∀ w, i ≠ .wrDr w)
    (h : exec i s = .next t) (h' : exec i t = .next u) : SameRegisters t u := by
  cases i with
  | wrCr1 _ | wrCr2 _ | wrCs _ | wrUndef _ _ => cases h; cases h'; exact ⟨rfl, rfl, rfl, rfl, rfl⟩
  | wrSr wdata => cases h; cases h'; exact ⟨rfl, rfl, clearBits_clearBits .., rfl, rfl⟩
  | wrDr wdata => exact absurd rfl (hi wdata)
  | _ => exact absurd hwrite Bool.false_ne_true

/-- A `WR_DR` while RXNE is 1 keeps `dr` and exchanges nothing (R81). -/
theorem exec_wrDr_full {wdata : Word} {s t : State} (hfull : srRxne s.sr = true) (h : exec (.wrDr wdata) s = .next t) :
    t.dr = s.dr ∧ exchangesOf t.trace = exchangesOf s.trace := by
  cases h
  rw [transfer_full hfull, overrunBranch_eq]
  simp [exchangesOf, Config.drOnOverrun]

/-- Settles O30: a repeated read or write meets the registers it left; after `RD_DR` RXNE is 0 and after `WR_DR` it is 1, which
decides the branch of the second access. -/
theorem idempotencyOfEachAccess : Obligations.IdempotencyOfEachAccess := by
  intro s
  refine ⟨fun i t hread hi h => ?_, fun i t hwrite hi h => ?_, fun o w t h => ?_, fun t h => ?_, fun w v t h => ?_⟩
  · obtain ⟨u, hu⟩ := exec_isNext i t
    have hnone := read_writes_none hread hi
    have hsame := sameRegisters_of_writes_none h hnone
    exact ⟨u, hu, read_rdata_congr hread hsame h hu, hsame, sameRegisters_of_writes_none hu hnone⟩
  · obtain ⟨u, hu⟩ := exec_isNext i t
    exact ⟨u, hu, write_again hwrite hi h hu⟩
  · exact sameRegisters_of_writes_none h rfl
  · obtain ⟨u, hu⟩ := exec_isNext .rdDr t
    obtain ⟨htdata, htdr⟩ := exec_rdDr_data h
    obtain ⟨hudata, -⟩ := exec_rdDr_data hu
    obtain ⟨hrxne, -, hunderrun, -⟩ := flags_srAfter_rdDr s.sr
    obtain ⟨-, -, hunderrun', -⟩ := flags_srAfter_rdDr t.sr
    refine ⟨u, hu, by rw [hudata, htdata, htdr], ?_, fun hfull hclear => ?_⟩
    · rw [exec_sr hu, hunderrun', exec_sr h, hrxne, Bool.not_false, Bool.or_true]
    · rw [exec_sr h, hunderrun, hclear, srRxne, hfull]; rfl
  · obtain ⟨u, hu⟩ := exec_isNext (.wrDr v) t
    obtain ⟨hset, -⟩ := flags_srAfter_wrDr w s.sr
    have hfull : srRxne t.sr = true := by rw [exec_sr h, hset]
    obtain ⟨-, -, -, hoverrun⟩ := flags_srAfter_wrDr v t.sr
    obtain ⟨hdr, hexchanges⟩ := exec_wrDr_full hfull hu
    exact ⟨u, hu, by rw [exec_sr hu, hoverrun, hfull, Bool.or_true], hdr, hexchanges⟩

end Sys2Proof.Machine
end

section
/-! PROOFS. The operation map and its encoding (spec/30_encoding.md): frames and table words spell their operations, decoding goes by
direction and exact offset, every 32-bit access completes, and the datum bits an operation does not use are ignored. -/

namespace Sys2Proof.Machine

/-! ## The fields of a key and of a frame -/

@[simp] theorem keyIsWrite_keyOf (isWrite : Bool) (offset : Word) : keyIsWrite (keyOf isWrite offset) = isWrite := by
  rw [keyIsWrite, keyOf, BitVec.getLsbD_append]
  cases isWrite <;> rfl

@[simp] theorem keyOffset_keyOf (isWrite : Bool) (offset : Word) : keyOffset (keyOf isWrite offset) = offset :=
  BitVec.extractLsb'_append_eq_right

@[simp] theorem frameKey_mkFrame (form : BitVec 7) (k : Key) (wdata : Word) : frameKey (mkFrame form k wdata) = k :=
  BitVec.extractLsb'_append_eq_right

@[simp] theorem frameForm_mkFrame (form : BitVec 7) (k : Key) (wdata : Word) : frameForm (mkFrame form k wdata) = form :=
  (BitVec.extractLsb'_append_eq_of_le (by decide)).trans BitVec.extractLsb'_append_eq_right

@[simp] theorem frameData_mkFrame (form : BitVec 7) (k : Key) (wdata : Word) : frameData (mkFrame form k wdata) = wdata :=
  (BitVec.extractLsb'_append_eq_of_le (by decide)).trans BitVec.extractLsb'_append_eq_left

/-! ## Decoding what the encoder writes -/

/-- The frame of an operation spells the operation's own request, so bytes and requests encode alike. -/
theorem requestOfFrame_frameOf (i : Instr) : requestOfFrame (frameOf i) = requestOf i := by
  unfold frameOf requestOf
  match transactionOf i with
  | some (false, offset, wdata) => simp [requestOfFrame, formOfWidth, resetForm, widthOfForm]
  | some (true, offset, wdata) => simp [requestOfFrame, formOfWidth, resetForm, widthOfForm]
  | none => simp [requestOfFrame]

/-- Settles O8: the nine bytes decode as the request of the operation does, and that request decodes to the operation. -/
theorem decodeOfEncodeIsTheOperation : Obligations.DecodeOfEncodeIsTheOperation := by
  intro i rest hwf
  rw [encode, decode_bytesOfFrame, requestOfFrame_frameOf, decodeRequest_requestOf hwf]
  rfl

/-! ## The duty on access width -/

/-- A request that keeps the duty on access width has an instruction (R35, R53). -/
theorem decodeRequest_isOk_of_keepsWidth {r : Request} (h : keepsWidth r = true) : ∃ i, decodeRequest r = .ok i := by
  match r, h with
  | .read .word32 offset, _ => exact ⟨_, rfl⟩
  | .write .word32 offset data, _ => exact ⟨_, rfl⟩
  | .reset, _ => exact ⟨_, rfl⟩

/-- Settles O5: an idle step changes nothing, an operation completes and leaves the later requests, and no request that keeps the
duty is refused. -/
theorem noStepStopsForADutifulHost : Obligations.NoStepStopsForADutifulHost := by
  intro s hduty
  obtain ⟨-, hidle⟩ | ⟨r, rest, i, htaken, -, hrun⟩ | ⟨r, rest, why, htaken, hreject, -⟩ := step_cases s
  · exact ⟨s, hidle, hduty⟩
  · obtain ⟨t, ht⟩ := exec_isNext i { s with requests := rest }
    refine ⟨t, hrun.trans ht, fun q hq => hduty q ?_⟩
    rw [exec_requests ht] at hq
    rw [htaken]
    exact List.mem_cons_of_mem r hq
  · obtain ⟨i, hi⟩ := decodeRequest_isOk_of_keepsWidth (hduty r (htaken ▸ List.mem_cons_self))
    cases hi.symm.trans hreject

/-! ## Decoding by direction and exact offset -/

/-- Every offset is exactly one register's or undefined (R32). -/
theorem exists_regOffset_or_undefined (offset : Word) : (∃ r, offset = regOffset r) ∨ undefinedOffset offset = true := by
  cases hreg : regAt offset with
  | some r => exact .inl ⟨r, regOffset_of_regAt hreg⟩
  | none => exact .inr (by rw [undefinedOffset, hreg, Option.isNone_none])

/-- Settles O7: at a register's offset the key is that register's, and at every other one none of the five tests holds. -/
theorem decodingIsByExactOffset : Obligations.DecodingIsByExactOffset := by
  intro offset wdata
  obtain ⟨r, rfl⟩ | hundef := exists_regOffset_or_undefined offset
  · refine ⟨(decodeKey_regOffset false r wdata).trans ?_, (decodeKey_regOffset true r wdata).trans ?_, rfl⟩
    · cases r <;> rfl
    · cases r <;> rfl
  · have hne := (undefinedOffset_iff offset).1 hundef
    have hcr1 : offset ≠ 0x00#32 := hne .cr1
    have hcr2 : offset ≠ 0x04#32 := hne .cr2
    have hsr : offset ≠ 0x08#32 := hne .sr
    have hdr : offset ≠ 0x0C#32 := hne .dr
    have hcs : offset ≠ 0x10#32 := hne .cs
    refine ⟨(Laws.RequestRoundTrip.decodeKey_undefined false offset wdata hundef).trans ?_,
      (Laws.RequestRoundTrip.decodeKey_undefined true offset wdata hundef).trans ?_, rfl⟩
    · rw [if_neg hcr1, if_neg hcr2, if_neg hsr, if_neg hdr, if_neg hcs]; rfl
    · rw [if_neg hcr1, if_neg hcr2, if_neg hsr, if_neg hdr, if_neg hcs]; rfl

/-- Settles O6: ten of the keys are those of registers' offsets, the other two those of undefined offsets. -/
theorem tableKeysDecodeToTheirOperations : Obligations.TableKeysDecodeToTheirOperations :=
  ⟨decodeKey_regOffset false .cr1 _, decodeKey_regOffset false .cr2 _, decodeKey_regOffset false .sr _,
    decodeKey_regOffset false .dr _, decodeKey_regOffset false .cs _,
    Laws.RequestRoundTrip.decodeKey_undefined false 0x14#32 _ rfl,
    decodeKey_regOffset true .cr1 _, decodeKey_regOffset true .cr2 _, decodeKey_regOffset true .sr _,
    decodeKey_regOffset true .dr _, decodeKey_regOffset true .cs _,
    Laws.RequestRoundTrip.decodeKey_undefined true 0x18#32 _ rfl⟩

/-! ## Table words -/

/-- The 40-bit word of a key is the frame of a 32-bit transaction with that key and a zero datum (log entry 2). -/
theorem ofNat_tableWord (k : Key) : BitVec.ofNat 72 (k.toNat % 2 ^ 40) = mkFrame 0#7 k 0#32 := by
  apply BitVec.eq_of_toNat_eq
  have hk : k.toNat % 2 ^ 40 % 2 ^ 72 = k.toNat := by omega
  rw [BitVec.toNat_ofNat, hk, mkFrame, BitVec.toNat_append, show (0#32 ++ 0#7).toNat = 0 from rfl, Nat.zero_shiftLeft,
    Nat.zero_or]

/-- The request of a key's word decodes to the key's operation with a zero datum. -/
theorem decodeRequest_tableWord (k : Key) :
    decodeRequest (requestOfFrame (BitVec.ofNat 72 (k.toNat % 2 ^ 40))) = .ok (decodeKey k 0#32) := by
  rw [ofNat_tableWord, decodeRequest_transactionFrame (frameForm_mkFrame ..), frameKey_mkFrame, frameData_mkFrame, ite_self]

theorem decodeTableWord_key (k : Key) : decodeTableWord 40 k.toNat = some (decodeKey k 0#32) := by
  rw [decodeTableWord, if_neg (by decide), ← List.append_nil (bytesOfFrame _), decode_bytesOfFrame, decodeRequest_tableWord]
  rfl

/-- The step after a table word runs the operation of the word's request, the other requests left behind it. -/
theorem step_withFetchWord {nbits w : Nat} {i : Instr} (h : decodeRequest (requestOfTableWord nbits w) = .ok i) (s : State) :
    step (s.withFetchWord nbits w) = exec i s :=
  stepRunsTheOldestRequest (s.withFetchWord nbits w) _ s.requests i rfl h

/-- Settles O10: the word of a key is read as the key's frame, by the decoder and by the next step alike. -/
theorem tableWordsAreFetchedAndRun : Obligations.TableWordsAreFetchedAndRun := by
  refine ⟨fun s k => ⟨decodeTableWord_key k, step_withFetchWord ?_ s⟩, fun s => ⟨rfl, step_withFetchWord rfl s⟩⟩
  exact decodeRequest_tableWord k

/-! ## Unused datum bits -/

/-- The clear mask keeps of a datum bits 3:2 alone (R48). -/
theorem srClearMask_masked (wdata : Word) : srClearMask (wdata &&& 0x0000000C#32) = srClearMask wdata := by
  rw [srClearMask, srClearMask, srErrMask, BitVec.and_assoc, BitVec.and_self]

/-- `trunc_8` keeps of a datum the low byte alone (R9, R48). -/
theorem trunc8_masked (wdata : Word) : trunc8 (wdata &&& 0x000000FF#32) = trunc8 wdata := by
  rw [trunc8, trunc8, BitVec.extractLsb'_and]
  exact BitVec.and_allOnes

/-- Settles O28: `WR_SR` sees the clear mask of its datum, `WR_DR` and `WR_CS` its low byte. -/
theorem unusedDatumBitsAreIgnored : Obligations.UnusedDatumBitsAreIgnored := by
  intro s wdata
  refine ⟨?_, ?_, ?_⟩
  · simp only [exec, execWrSr, State.clearErrors, srClearMask_masked]
  · simp only [exec, execWrDr, trunc8_masked]
  · simp only [exec, execWrCs, trunc8_masked]

end Sys2Proof.Machine
end

section
/-! PROOFS. The register reads (spec/40_register_read.md): what each read returns, what it leaves unchanged, and what `RD_DR` does to
the flags and to the Interrupt Line. -/

namespace Sys2Proof.Machine

/-! ## Equal registers and undefined offsets -/

/-- A Chip-Select Line changes only with `cs` (R24). -/
theorem line_of_cs_eq {s t : State} (h : t.cs = s.cs) (line : Fin 4) : t.line line = s.line line := by
  rw [State.line_eq, State.line_eq, h]

/-- Equal registers give equal outputs (R24). -/
theorem sameOutputs_of_sameRegisters {s t : State} (h : SameRegisters s t) : SameOutputs s t := by
  obtain ⟨-, hcr2, hsr, -, hcs⟩ := h
  exact ⟨by rw [State.irq_eq, State.irq_eq, hcr2, hsr], line_of_cs_eq hcs⟩

/-- An offset that is none of the five is undefined (R32). -/
theorem undefinedOffset_of_ne {offset : Word} (hcr1 : offset ≠ 0x00#32) (hcr2 : offset ≠ 0x04#32) (hsr : offset ≠ 0x08#32)
    (hdr : offset ≠ 0x0C#32) (hcs : offset ≠ 0x10#32) : undefinedOffset offset = true :=
  (undefinedOffset_iff offset).2 fun
    | .cr1 => hcr1 | .cr2 => hcr2 | .sr => hsr | .dr => hdr | .cs => hcs

/-! ## The events of a read -/

/-- Re-evaluating the Interrupt Line neither calls the Serial Link nor drives a Chip-Select Line (R107). -/
theorem driveIrq_events (s : State) :
    exchangesOf s.driveIrq.trace = exchangesOf s.trace ∧ lineDrivesOf s.driveIrq.trace = lineDrivesOf s.trace := by
  simp [exchangesOf, lineDrivesOf]

/-- A diagnostic report, emitted or not, is neither an exchange nor a drive of a line (R103). -/
theorem report_events (s : State) (kind : DiagKind) (offset : Word) (wdata : Option Word) :
    exchangesOf (s.report kind offset wdata).trace = exchangesOf s.trace ∧
    lineDrivesOf (s.report kind offset wdata).trace = lineDrivesOf s.trace := by
  rw [State.report_trace]
  split
  · simp [exchangesOf, lineDrivesOf]
  · rw [List.append_nil]
    exact ⟨rfl, rfl⟩

/-- No read calls the Serial Link or drives a line (R66). -/
theorem read_events {i : Instr} {s t : State} (hread : isRead i = true) (h : exec i s = .next t) :
    exchangesOf t.trace = exchangesOf s.trace ∧ lineDrivesOf t.trace = lineDrivesOf s.trace := by
  cases i with
  | rdCr1 | rdCr2 | rdSr | rdCs => cases h; exact ⟨rfl, rfl⟩
  | rdDr =>
    cases h
    rw [← consumeOrUnderrun_trace s]
    exact driveIrq_events (consumeOrUnderrun s)
  | rdUndef offset => cases h; exact report_events s .badRead offset none
  | _ => exact absurd hread Bool.false_ne_true

/-- No read uses up an answer of the Serial Link (R66, R83). -/
theorem read_linkAnswers {i : Instr} {s t : State} (hread : isRead i = true) (h : exec i s = .next t) :
    t.linkAnswers = s.linkAnswers := by
  cases i with
  | rdCr1 | rdCr2 | rdSr | rdCs | rdUndef _ => cases h; rfl
  | rdDr => cases h; simp [consumeOrUnderrun_eq]
  | _ => exact absurd hread Bool.false_ne_true

/-! ## What a read returns and keeps -/

/-- Every read gives a value back (R45, R66). -/
theorem read_answers {i : Instr} {s t : State} (hread : isRead i = true) (h : exec i s = .next t) :
    ∃ v, t.rdata = some v := by
  cases i with
  | rdCr1 | rdCr2 | rdSr | rdDr | rdCs | rdUndef _ => cases h; exact ⟨_, rfl⟩
  | _ => exact absurd hread Bool.false_ne_true

/-- A read keeps every register but SR (R66). -/
theorem read_keeps_get {i : Instr} {s t : State} (hread : isRead i = true) (h : exec i s = .next t) {r : Reg} (hr : r ≠ .sr) :
    t.get r = s.get r := by
  apply exec_keeps_get h
  by_cases hi : i = .rdDr
  · rw [hi]
    exact List.mem_singleton.not.2 hr
  · rw [read_writes_none hread hi]
    exact List.not_mem_nil

/-- `RD_DR` drives `irq` once, with the level of the new `sr` (R63, R107). -/
theorem exec_rdDr_trace {s t : State} (h : exec .rdDr s = .next t) : t.trace = s.trace ++ [.irqDrive t.irq] := by
  cases h
  rw [State.irq_eq, State.answer_trace, State.driveIrq_trace, consumeOrUnderrun_trace]
  rfl

/-- Settles O16: the next `sr` is `srAfter .rdDr`, the other registers are outside what the read writes, and the drive of `irq` is the
only event. -/
theorem readDrConsumesOrUnderruns : Obligations.ReadDrConsumesOrUnderruns := by
  intro s
  obtain ⟨t, ht⟩ := exec_isNext .rdDr s
  have hkept : ∀ r, r ≠ .sr → t.get r = s.get r := fun r => read_keeps_get rfl ht
  have hcs : t.cs = s.cs := hkept .cs (by decide)
  obtain ⟨hrdata, hdr⟩ := exec_rdDr_data ht
  refine ⟨t, decodeKey_regOffset false .dr, ht, hrdata, hkept .cr1 (by decide), hkept .cr2 (by decide), hdr, hcs, ?_,
    exec_rdDr_trace ht, read_linkAnswers rfl ht, exec_requests ht, line_of_cs_eq hcs⟩
  intro j hj
  rw [exec_sr ht, getLsbD_srAfter_rdDr _ _ hj]
  by_cases h2 : j = 2
  · subst h2; rfl
  · simp [h2]

/-- Settles O17: such an offset hits no register's key, and the operation at it writes no register. -/
theorem undefinedReadReturnsZero : Obligations.UndefinedReadReturnsZero := by
  intro s offset wdata hcr1 hcr2 hsr hdr hcs
  have hundef := undefinedOffset_of_ne hcr1 hcr2 hsr hdr hcs
  refine ⟨Laws.RequestRoundTrip.decodeKey_undefined false offset wdata hundef, rfl, fun t ht => ?_⟩
  have hsame : SameRegisters s t := sameRegisters_of_writes_none ht rfl
  exact ⟨hsame, sameOutputs_of_sameRegisters hsame⟩

/-- Settles O18: a read writes at most SR, and only `RD_DR` writes that. -/
theorem readsInCommon : Obligations.ReadsInCommon := by
  intro i s hread
  obtain ⟨t, ht⟩ := exec_isNext i s
  obtain ⟨v, hv⟩ := read_answers hread ht
  have hkept : ∀ r, r ≠ .sr → t.get r = s.get r := fun r => read_keeps_get hread ht
  have hcs : t.cs = s.cs := hkept .cs (by decide)
  obtain ⟨hexchanges, hlines⟩ := read_events hread ht
  refine ⟨t, v, ht, hv, hkept .cr1 (by decide), hkept .cr2 (by decide), hkept .dr (by decide), hcs, fun hi => ?_, ?_, hexchanges,
    read_linkAnswers hread ht, hlines, line_of_cs_eq hcs⟩
  · have hsame := sameRegisters_of_writes_none ht (read_writes_none hread hi)
    obtain ⟨hirq, -⟩ := sameOutputs_of_sameRegisters hsame
    obtain ⟨-, -, hsr, -, -⟩ := hsame
    exact ⟨hsr, hirq⟩
  · rintro rfl
    obtain ⟨hdata, -⟩ := exec_rdDr_data ht
    obtain ⟨-, -, hunderrun, -⟩ := flags_srAfter_rdDr s.sr
    refine ⟨Option.some.inj (hv.symm.trans hdata), fun hempty => ?_⟩
    rw [exec_sr ht, hunderrun, hempty, Bool.not_false, Bool.or_true]

/-! ## The four plain reads -/

/-- A read of a register other than DR returns the whole register and changes nothing else (R60, R61, R62, R64). -/
theorem exec_plainRead {r : Reg} (hr : r ≠ .dr) (s : State) :
    exec (accessOf false r 0#32) s = .next { s with rdata := some (s.get r) } := by
  cases r with
  | dr => exact absurd rfl hr
  | _ => rfl

/-- A plain read changes no register and no output, sends nothing out, and repeated gives the same state (R36). -/
theorem plainRead_again {r : Reg} (hr : r ≠ .dr) {s t : State} (h : exec (accessOf false r 0#32) s = .next t) :
    SameRegisters s t ∧ SameOutputs s t ∧ t.trace = s.trace ∧ exec (accessOf false r 0#32) t = .next t := by
  cases (exec_plainRead hr s).symm.trans h
  have hsame : SameRegisters s { s with rdata := some (s.get r) } := ⟨rfl, rfl, rfl, rfl, rfl⟩
  refine ⟨hsame, sameOutputs_of_sameRegisters hsame, rfl, ?_⟩
  rw [exec_plainRead hr]
  cases r <;> rfl

/-- A plain read returns the value its register is known to hold. -/
theorem exec_plainRead_of_get {r : Reg} (hr : r ≠ .dr) {t : State} {v : Word} (h : t.get r = v) :
    exec (accessOf false r 0#32) t = .next { t with rdata := some v } := by
  rw [exec_plainRead hr, h]

/-- Of a datum `zext_32(trunc_8(v))` keeps the low byte (R9, R48). -/
theorem zext32_trunc8 (v : Word) : zext32 (trunc8 v) = v &&& 0x000000FF#32 := by
  apply word_ext
  intro j hj
  have hmask : (0x000000FF#32 : Word).getLsbD j = decide (j < 8) := by
    interval_cases j <;> rfl
  rw [BitVec.getLsbD_and, hmask, Bool.and_comm]
  simp [zext32, trunc8, hj]

/-- Settles O15: a plain read returns what its register holds, which a write, a reset or the invariant tells. -/
theorem plainReadsReturnTheirRegister : Obligations.PlainReadsReturnTheirRegister := by
  intro s
  have hcr1 : Reg.cr1 ≠ .dr := by decide
  have hcr2 : Reg.cr2 ≠ .dr := by decide
  have hsr : Reg.sr ≠ .dr := by decide
  have hcs : Reg.cs ≠ .dr := by decide
  refine ⟨fun d => ⟨decodeKey_regOffset false .cr1 d, decodeKey_regOffset false .cr2 d, decodeKey_regOffset false .sr d,
      decodeKey_regOffset false .cs d⟩,
    exec_plainRead hcr1 s, exec_plainRead hcr2 s, exec_plainRead hsr s, exec_plainRead hcs s, ?_, ?_, ?_, ?_⟩
  · rintro i t (rfl | rfl | rfl | rfl) h
    · exact plainRead_again hcr1 h
    · exact plainRead_again hcr2 h
    · exact plainRead_again hsr h
    · exact plainRead_again hcs h
  · refine fun v t => ⟨fun h => exec_plainRead_of_get hcr1 ?_, fun h => exec_plainRead_of_get hcr2 ?_,
      fun h => exec_plainRead_of_get hcs ?_⟩
    · cases h; rfl
    · cases h; rfl
    · cases h; exact zext32_trunc8 v
  · intro t h
    obtain ⟨hcr1', hcr2', hsr', -, hcs'⟩ := exec_reset_registers h
    exact ⟨exec_plainRead_of_get hcr1 hcr1', exec_plainRead_of_get hcr2 hcr2', exec_plainRead_of_get hsr hsr',
      exec_plainRead_of_get hcs hcs'⟩
  · intro hinv
    have hmem := regInv_sr_mem hinv
    obtain ⟨-, hhigh, -, -⟩ := hinv
    exact ⟨hmem, (extractLsb'_high_eq_zero_iff s.sr).1 hhigh 7 (by decide)⟩

end Sys2Proof.Machine
end

section
/-! PROOFS. The register writes (spec/41_register_write.md): which register each write changes, when `irq` is 1 after one, which lines
it drives, and which write calls the Serial Link. -/

namespace Sys2Proof.Machine

/-! ## The Interrupt Line -/

/-- `irq` is 1 exactly where some enabled cause is present (R105). -/
theorem State.irq_iff (s : State) :
    s.irq = true ↔ (cr2Txeie s.cr2 = true ∧ srTxe s.sr = true) ∨ (cr2Rxneie s.cr2 = true ∧ srRxne s.sr = true) ∨
      (cr2Errie s.cr2 = true ∧ (srOverrun s.sr = true ∨ srUnderrun s.sr = true)) := by
  simp [State.irq_eq, irqLevel, or_assoc]

/-- `irq` changes only with `cr2` or `sr` (R24). -/
theorem irq_of_cr2_sr_eq {s t : State} (hcr2 : t.cr2 = s.cr2) (hsr : t.sr = s.sr) : t.irq = s.irq := by
  rw [State.irq_eq, State.irq_eq, hcr2, hsr]

/-- Under the invariant TXE is 1, so its enable alone holds the line (R71, R129). -/
theorem irq_of_txeie {s : State} (hinv : RegInv s) (henable : cr2Txeie s.cr2 = true) : s.irq = true := by
  obtain ⟨htxe, -⟩ := hinv
  exact s.irq_iff.2 (.inl ⟨henable, htxe⟩)

/-- Of `cr2` only the three enables, bits 7 to 5, reach `irq` (R14, R105). -/
theorem irqLevel_congr_enables {v w : Word} (h : ∀ j, 5 ≤ j → j ≤ 7 → v.getLsbD j = w.getLsbD j) (sr : Word) :
    irqLevel v sr = irqLevel w sr := by
  have htxeie : cr2Txeie v = cr2Txeie w := h 7 (by decide) (by decide)
  have hrxneie : cr2Rxneie v = cr2Rxneie w := h 6 (by decide) (by decide)
  have herrie : cr2Errie v = cr2Errie w := h 5 (by decide) (by decide)
  rw [irqLevel, irqLevel, htxeie, hrxneie, herrie]

/-! ## Which operation changes a register -/

/-- Outside RESET a register is written by the write at its offset alone, and SR by the two accesses of DR too (R76). -/
theorem writer_of_mem_registersWritten {i : Instr} (hi : i ≠ .reset) {r : Reg} (hr : r ∈ registersWritten i) :
    ∃ w, i = accessOf true r w ∨ (r = .sr ∧ (i = .rdDr ∨ i = .wrDr w)) := by
  cases i with
  | wrCr1 w | wrCr2 w | wrSr w | wrCs w => cases List.mem_singleton.1 hr; exact ⟨w, .inl rfl⟩
  | rdDr => exact ⟨0#32, .inr ⟨List.mem_singleton.1 hr, .inl rfl⟩⟩
  | wrDr w =>
    obtain rfl | rfl := List.mem_pair.1 hr
    · exact ⟨w, .inr ⟨rfl, .inr rfl⟩⟩
    · exact ⟨w, .inl rfl⟩
  | reset => exact absurd rfl hi
  | _ => exact absurd hr List.not_mem_nil

/-- An operation that is neither RESET nor a writer of the register keeps it. -/
theorem exec_keeps_register {i : Instr} {s t : State} (hi : i ≠ .reset) (h : exec i s = .next t) {r : Reg}
    (hwriter : ∀ w, i ≠ accessOf true r w) (hsr : r = .sr → ∀ w, i ≠ .rdDr ∧ i ≠ .wrDr w) : t.get r = s.get r := by
  refine exec_keeps_get h fun hr => ?_
  obtain ⟨w, heq | ⟨rfl, heq⟩⟩ := writer_of_mem_registersWritten hi hr
  · exact hwriter w heq
  · obtain ⟨hread, hwrite⟩ := hsr rfl w
    exact heq.elim hread hwrite

theorem ne_of_isWrite {i j : Instr} (hwrite : isWrite i = true) (hj : isWrite j = false) : i ≠ j := by
  rintro rfl
  exact Bool.false_ne_true (hj.symm.trans hwrite)

/-! ## What a write sends out -/

/-- A write gives nothing back (R45, R76). -/
theorem write_answers_nothing {i : Instr} {s t : State} (hwrite : isWrite i = true) (h : exec i s = .next t) :
    t.rdata = none := by
  cases i with
  | wrCr1 _ | wrCr2 _ | wrSr _ | wrDr _ | wrCs _ | wrUndef _ _ => cases h; rfl
  | _ => exact absurd hwrite Bool.false_ne_true

/-- Driving the four lines calls no Serial Link (R91). -/
theorem driveLines_exchanges (s : State) : exchangesOf s.driveLines.trace = exchangesOf s.trace := by
  simp [exchangesOf]

/-- A write that is no accepted `WR_DR` does not call the Serial Link (R76). -/
theorem write_exchanges_nothing {i : Instr} {s t : State} (hwrite : isWrite i = true)
    (hfull : ∀ w, i = .wrDr w → srRxne s.sr = true) (h : exec i s = .next t) : exchangesOf t.trace = exchangesOf s.trace := by
  cases i with
  | wrCr1 w => cases h; rfl
  | wrCr2 w => cases h; exact (driveIrq_events (s.put .cr2 w)).1
  | wrSr w => cases h; exact (driveIrq_events (s.clearErrors w)).1
  | wrDr w => exact (exec_wrDr_full (hfull w rfl) h).2
  | wrCs w => cases h; exact driveLines_exchanges (s.put .cs (zext32 (trunc8 w)))
  | wrUndef offset w => cases h; exact (report_events s .badWrite offset (some w)).1
  | _ => exact absurd hwrite Bool.false_ne_true

/-- A `WR_DR` while RXNE is 0 calls the Serial Link once, with the low byte of the datum (R82). -/
theorem exec_wrDr_empty_exchanges {wdata : Word} {s t : State} (hempty : srRxne s.sr = false)
    (h : exec (.wrDr wdata) s = .next t) :
    exchangesOf t.trace = exchangesOf s.trace ++ [(trunc8 wdata, s.linkAnswer (trunc8 wdata))] := by
  cases h
  rw [transfer_empty hempty, exchangeBranch_eq]
  simp [exchangesOf]

/-! ## The chip-select lines -/

/-- A line is 0 exactly where its enable and its polarity are both 1 (R90). -/
theorem csLevel_eq_not_and (cs : Word) (line : Fin 4) :
    csLevel cs line = !(cs.getLsbD line.val && cs.getLsbD (line.val + 4)) := by
  unfold csLevel csEnable csPolarity
  cases cs.getLsbD line.val && cs.getLsbD (line.val + 4) <;> rfl

theorem getLsbD_lowByte (v : Word) {j : Nat} (hj : j < 8) : (v &&& 0x000000FF#32).getLsbD j = v.getLsbD j := by
  have hmask : (0x000000FF#32 : Word).getLsbD j = true := by
    interval_cases j <;> rfl
  rw [BitVec.getLsbD_and, hmask, Bool.and_true]

/-- The four lines see of `cs` its low byte alone (R23, R90). -/
theorem csLevel_lowByte (v : Word) (line : Fin 4) : csLevel (v &&& 0x000000FF#32) line = csLevel v line := by
  rw [csLevel_eq_not_and, csLevel_eq_not_and, getLsbD_lowByte v (by omega), getLsbD_lowByte v (by omega)]

/-- What `WR_CS` stores is the datum without its bits from 8 up (R74). -/
theorem exec_wrCs (wdata : Word) (s : State) :
    exec (.wrCs wdata) s = .next (s.put .cs (wdata &&& 0x000000FF#32)).driveLines.answerNothing := by
  rw [← zext32_trunc8]
  rfl

/-! ## WR_SR -/

/-- `WR_SR` uses up no answer and drives `irq` once, with the level of the new `sr` (R72, R107). -/
theorem exec_wrSr_ports {wdata : Word} {s t : State} (h : exec (.wrSr wdata) s = .next t) :
    t.trace = s.trace ++ [.irqDrive t.irq] ∧ t.linkAnswers = s.linkAnswers := by
  cases h
  exact ⟨rfl, rfl⟩

/-- `WR_SR` only takes causes away, so it cannot raise `irq` (R72). -/
theorem irq_of_irq_after_wrSr {wdata : Word} {s t : State} (h : exec (.wrSr wdata) s = .next t) (hirq : t.irq = true) :
    s.irq = true := by
  have hcr2 : t.cr2 = s.cr2 := exec_keeps_get h (r := .cr2) (List.mem_singleton.not.2 (by decide))
  obtain ⟨hrxne, htxe, hunderrun, hoverrun⟩ := flags_srAfter_wrSr wdata s.sr
  rw [State.irq_iff, exec_sr h, hcr2, hrxne, htxe, hunderrun, hoverrun, Bool.and_eq_true, Bool.and_eq_true] at hirq
  exact s.irq_iff.2 (hirq.imp_right (.imp_right (.imp_right (.imp And.left And.left))))

/-! ## The statements -/

/-- Settles O19: only CR1 is replaced, and no output depends on it. -/
theorem writeCr1StoresAllBits : Obligations.WriteCr1StoresAllBits := by
  intro s wdata
  refine ⟨decodeKey_regOffset true .cr1 wdata, rfl, fun t ht => ?_⟩
  cases ht
  exact ⟨⟨irq_of_cr2_sr_eq rfl rfl, line_of_cs_eq rfl⟩, fun hheld => ⟨hheld, rfl, rfl, rfl, rfl⟩⟩

/-- Settles O20: the line is the combinator of the datum and `sr`; TXEIE holds it because other operations keep both CR2 and TXE. -/
theorem writeCr2StoresAllBitsAndDrivesIrq : Obligations.WriteCr2StoresAllBitsAndDrivesIrq := by
  intro s wdata
  obtain ⟨t, ht⟩ := exec_isNext (.wrCr2 wdata) s
  have hcr2 : t.cr2 = wdata := by cases ht; rfl
  have hsr : t.sr = s.sr := exec_sr ht
  refine ⟨t, decodeKey_regOffset true .cr2 wdata, ht, by cases ht; rfl, ?_, fun hinv htxeie => ?_, fun herrie herror => ?_,
    fun hzero => ?_, fun v u hagree hu => ?_⟩
  · rw [State.irq_eq, hcr2, hsr]
    rfl
  · have hinvt := exec_keeps_regInv hinv ht
    refine ⟨irq_of_txeie hinvt (by rw [hcr2]; exact htxeie), fun i hreset hwrCr2 => ?_⟩
    obtain ⟨u, hu⟩ := exec_isNext i t
    have hkept : u.cr2 = t.cr2 := exec_keeps_register hreset hu (r := .cr2) hwrCr2 nofun
    have hinvu := exec_keeps_regInv hinvt hu
    exact ⟨u, hu, irq_of_txeie hinvu (by rw [hkept, hcr2]; exact htxeie), hkept.trans hcr2, hinvu⟩
  · rw [State.irq_iff, hcr2, hsr]
    exact .inr (.inr ⟨herrie, herror.symm⟩)
  · rw [State.irq_eq, hcr2, hzero]
    rfl
  · have hcr2' : u.cr2 = v := by cases hu; rfl
    rw [State.irq_eq, State.irq_eq, hcr2, hcr2', hsr, exec_sr hu]
    exact irqLevel_congr_enables hagree s.sr

/-- Settles O21: the next `sr` is `srAfter (.wrSr wdata)`, SR is the one register written, and the drive of `irq` is the only event. -/
theorem writeSrClearsExactlyTheWrittenErrorBits : Obligations.WriteSrClearsExactlyTheWrittenErrorBits := by
  intro s wdata
  obtain ⟨t, ht⟩ := exec_isNext (.wrSr wdata) s
  obtain ⟨u, hu⟩ := exec_isNext (.wrSr wdata) t
  have hkept : ∀ r, r ≠ .sr → t.get r = s.get r := fun r hr => exec_keeps_get ht (List.mem_singleton.not.2 hr)
  have hcs : t.cs = s.cs := hkept .cs (by decide)
  obtain ⟨htrace, hanswers⟩ := exec_wrSr_ports ht
  obtain ⟨-, -, hagain, -, -⟩ := write_again (i := .wrSr wdata) rfl nofun ht hu
  refine ⟨t, decodeKey_regOffset true .sr wdata, ht, write_answers_nothing rfl ht, hkept .cr1 (by decide), hkept .cr2 (by decide),
    hkept .dr (by decide), hcs, fun j hj => ?_, htrace, hanswers, exec_requests ht, ⟨u, hu, hagain⟩, irq_of_irq_after_wrSr ht,
    line_of_cs_eq hcs⟩
  rw [exec_sr ht, getLsbD_srAfter_wrSr _ _ _ hj, ← Bool.decide_or]
  by_cases herror : j = 2 ∨ j = 3
  · rw [if_pos herror, decide_eq_true herror, Bool.true_and]
  · rw [if_neg herror, decide_eq_false herror, Bool.false_and, Bool.not_false, Bool.and_true]

/-- Settles O25: CS takes the low byte, which is all of the datum that the lines see. -/
theorem writeCsStoresAByteAndDrivesTheLines : Obligations.WriteCsStoresAByteAndDrivesTheLines := by
  intro s wdata
  refine ⟨_, _, decodeKey_regOffset true .cs wdata, exec_wrCs wdata s, rfl, .refl _, fun line => ?_, irq_of_cr2_sr_eq rfl rfl,
    driveLines_exchanges _⟩
  exact (csLevel_lowByte wdata line).trans (csLevel_eq_not_and wdata line)

/-- Settles O26: such an offset hits no register's key, and the operation at it writes no register. -/
theorem undefinedWriteChangesNothing : Obligations.UndefinedWriteChangesNothing := by
  intro s offset wdata hcr1 hcr2 hsr hdr hcs
  have hundef := undefinedOffset_of_ne hcr1 hcr2 hsr hdr hcs
  refine ⟨Laws.RequestRoundTrip.decodeKey_undefined true offset wdata hundef, rfl, fun t ht => ?_⟩
  have hsame : SameRegisters s t := sameRegisters_of_writes_none ht rfl
  exact ⟨hsame, sameOutputs_of_sameRegisters hsame⟩

/-- Settles O27: a write changes the registers it is a writer of, and outputs only with them; RXNE decides whether `WR_DR` exchanges. -/
theorem writesInCommon : Obligations.WritesInCommon := by
  intro i s hwrite
  obtain ⟨t, ht⟩ := exec_isNext i s
  have hreset : i ≠ .reset := ne_of_isWrite hwrite rfl
  have hrdDr : i ≠ .rdDr := ne_of_isWrite hwrite rfl
  have hcr2 (hi : ∀ w, i ≠ .wrCr2 w) : t.cr2 = s.cr2 := exec_keeps_register hreset ht (r := .cr2) hi nofun
  have hsr (hi : ∀ w, i ≠ .wrSr w ∧ i ≠ .wrDr w) : t.sr = s.sr :=
    exec_keeps_register hreset ht (r := .sr) (fun w => (hi w).1) fun _ w => ⟨hrdDr, (hi w).2⟩
  have hcs (hi : ∀ w, i ≠ .wrCs w) : t.cs = s.cs := exec_keeps_register hreset ht (r := .cs) hi nofun
  refine ⟨t, ht, write_answers_nothing hwrite ht, fun hi => exec_keeps_register hreset ht (r := .cr1) hi nofun, hcr2, hsr,
    fun hi => exec_keeps_register hreset ht (r := .dr) hi nofun, fun hi => ⟨hcs hi, line_of_cs_eq (hcs hi)⟩,
    fun hi => irq_of_cr2_sr_eq (hcr2 fun w => (hi w).1) (hsr fun w => (hi w).2),
    fun hfull => write_exchanges_nothing hwrite hfull ht, ?_⟩
  rintro ⟨w, rfl⟩ hempty
  exact ⟨_, exec_wrDr_empty_exchanges hempty ht⟩

end Sys2Proof.Machine
end

section
/-! PROOFS. The Transfer (spec/42_transfer.md): the whole next state of `WR_DR` in each branch, what alone calls the Serial Link, the
transition table of `sr`, and the independence of the data path from the chip-select decoder. -/

namespace Sys2Proof.Machine

/-! ## The two branches of `WR_DR` -/

/-- `trunc_8` takes the low byte (R9, R48). -/
theorem trunc8_eq_setWidth (v : Word) : trunc8 v = v.setWidth 8 :=
  (BitVec.setWidth_eq_extractLsb' (by decide)).symm

/-- `WR_DR` while RXNE is 1: OVERRUN set and `irq` driven, everything else as before (R81). -/
theorem exec_wrDr_of_full {s : State} (hfull : srRxne s.sr = true) (wdata : Word) :
    exec (.wrDr wdata) s = .next
      { s with
        sr := s.sr ||| 0x8#32
        rdata := none
        trace := s.trace ++ [.irqDrive (irqLevel s.cr2 (s.sr ||| 0x8#32))] } := by
  rw [exec, execWrDr, transfer_full hfull, overrunBranch_eq]
  rfl

/-- `WR_DR` while RXNE is 0: one exchange, its answer in `dr`, RXNE and TXE set, `irq` driven (R82). -/
theorem exec_wrDr_of_empty {s : State} (hempty : srRxne s.sr = false) (wdata : Word) :
    exec (.wrDr wdata) s = .next
      { s with
        sr := s.sr ||| 0x3#32
        dr := zext32 (s.linkAnswer (trunc8 wdata))
        rdata := none
        linkAnswers := s.linkAnswers.drop 1
        trace := s.trace ++ [.exchange (trunc8 wdata) (s.linkAnswer (trunc8 wdata)),
          .irqDrive (irqLevel s.cr2 (s.sr ||| 0x3#32))] } := by
  rw [exec, execWrDr, transfer_empty hempty, exchangeBranch_eq]
  rfl

/-- `WR_DR` keeps `cr2` and clears no flag, so it cannot lower `irq` (R105). -/
theorem irq_after_wrDr_of_irq {wdata : Word} {s t : State} (h : exec (.wrDr wdata) s = .next t) (hirq : s.irq = true) :
    t.irq = true := by
  have hcr2 : t.cr2 = s.cr2 := exec_keeps_get h (r := .cr2) (List.mem_pair.not.2 (by decide))
  obtain ⟨hrxne, htxe, hunderrun, hoverrun⟩ := flags_srAfter_wrDr wdata s.sr
  rw [State.irq_iff, exec_sr h, hcr2, hrxne, htxe, hunderrun, hoverrun, Bool.or_eq_true, Bool.or_eq_true]
  exact (s.irq_iff.1 hirq).imp (.imp_right .inl) (.imp (.imp_right fun _ => rfl) (.imp_right (.imp_left .inl)))

/-- Settles O22: the whole next state of the exchange branch, with the answer taken from the schedule where there is one. -/
theorem writeDrExchangesOneByte : Obligations.WriteDrExchangesOneByte := by
  intro s wdata hempty
  have hexec := exec_wrDr_of_empty hempty wdata
  rw [trunc8_eq_setWidth] at hexec
  refine ⟨_, _, hexec, rfl, rfl, rfl, rfl, rfl, rfl, rfl, rfl, fun answer rest hscheduled => ?_, fun hnone => ?_,
    irq_after_wrDr_of_irq hexec, line_of_cs_eq rfl⟩
  · exact ⟨linkAnswer_scheduled hscheduled _, congrArg (List.drop 1) hscheduled⟩
  · exact congrArg (List.drop 1) hnone

/-- Settles O23: the whole next state of the overrun branch, whose OVERRUN is a cause of `irq` under ERRIE. -/
theorem writeDrWhileFullOverruns : Obligations.WriteDrWhileFullOverruns := by
  intro s wdata hfull
  have hexec := exec_wrDr_of_full hfull wdata
  obtain ⟨-, hexchanges⟩ := exec_wrDr_full hfull hexec
  refine ⟨_, hexec, rfl, hexchanges, fun herrie => ?_, irq_after_wrDr_of_irq hexec⟩
  obtain ⟨-, -, -, hoverrun⟩ := flags_srAfter_wrDr wdata s.sr
  refine (State.irq_iff _).2 (.inr (.inr ⟨herrie, .inl ?_⟩))
  rw [exec_sr hexec, hoverrun, srRxne, hfull, Bool.or_true]

/-- Settles O24: the two readings of R81 share everything but the value of `dr`. -/
theorem overwriteAlternativeDiffersInDrAlone : Obligations.OverwriteAlternativeDiffersInDrAlone := by
  refine ⟨rfl, fun s tx => ?_⟩
  rw [overrunBranch_eq, overrunBranch_eq]
  exact ⟨rfl, rfl⟩

/-- Settles O43: the schedule is the state's own field, which the exchange branch reads and the overrun branch does not. -/
theorem everyAnswerOfTheLinkIsAdmitted : Obligations.EveryAnswerOfTheLinkIsAdmitted := by
  intro s wdata answers
  cases hrxne : s.sr.getLsbD 0 with
  | false =>
    refine ⟨_, exec_wrDr_of_empty (s := { s with linkAnswers := answers }) hrxne wdata, fun _ rx rest hscheduled => ?_, nofun⟩
    exact ⟨congrArg zext32 (linkAnswer_scheduled hscheduled _), congrArg (List.drop 1) hscheduled⟩
  | true => exact ⟨_, exec_wrDr_of_full (s := { s with linkAnswers := answers }) hrxne wdata, nofun, fun _ => ⟨rfl, rfl⟩⟩

/-! ## What calls the Serial Link -/

theorem read_or_write_or_reset (i : Instr) : isRead i = true ∨ isWrite i = true ∨ i = .reset := by
  cases i with
  | rdCr1 | rdCr2 | rdSr | rdDr | rdCs | rdUndef _ => exact .inl rfl
  | reset => exact .inr (.inr rfl)
  | _ => exact .inr (.inl rfl)

/-- Only an accepted `WR_DR` calls the Serial Link (R80). -/
theorem exec_exchanges_nothing {i : Instr} {s t : State} (h : exec i s = .next t)
    (hfull : ∀ w, i = .wrDr w → srRxne s.sr = true) : exchangesOf t.trace = exchangesOf s.trace := by
  obtain hread | hwrite | rfl := read_or_write_or_reset i
  · exact (read_events hread h).1
  · exact write_exchanges_nothing hwrite hfull h
  · cases h; exact driveLines_exchanges s.resetRegisters

/-- Only an accepted `WR_DR` uses up an answer of the Serial Link (R80). -/
theorem exec_keeps_linkAnswers {i : Instr} {s t : State} (h : exec i s = .next t)
    (hfull : ∀ w, i = .wrDr w → srRxne s.sr = true) : t.linkAnswers = s.linkAnswers := by
  cases i with
  | rdDr => exact read_linkAnswers rfl h
  | wrDr wdata => cases (exec_wrDr_of_full (hfull wdata rfl) wdata).symm.trans h; rfl
  | _ => cases h; rfl

/-- An accepted `WR_DR` leaves the answer of its one exchange in `dr` (R82). -/
theorem exec_wrDr_empty {wdata : Word} {s t : State} (hempty : srRxne s.sr = false) (h : exec (.wrDr wdata) s = .next t) :
    ∃ rx, t.dr = BitVec.setWidth 32 rx ∧ exchangesOf t.trace = exchangesOf s.trace ++ [(BitVec.setWidth 8 wdata, rx)] := by
  have hexchanges := exec_wrDr_empty_exchanges hempty h
  rw [trunc8_eq_setWidth] at hexchanges
  refine ⟨_, ?_, hexchanges⟩
  cases (exec_wrDr_of_empty hempty wdata).symm.trans h
  rw [trunc8_eq_setWidth]
  rfl

/-- Settles O33: RXNE tells an accepted `WR_DR` from every other operation. -/
theorem exchangesAreTriggeredByAcceptedDrWritesAlone : Obligations.ExchangesAreTriggeredByAcceptedDrWritesAlone := by
  intro i s
  obtain ⟨t, ht⟩ := exec_isNext i s
  refine ⟨t, ht, ?_, fun hfull => ⟨exec_exchanges_nothing ht hfull, exec_keeps_linkAnswers ht hfull⟩⟩
  rintro w rfl hempty
  obtain ⟨rx, hdr, hexchanges⟩ := exec_wrDr_empty hempty ht
  exact ⟨rx, hexchanges, hdr⟩

/-! ## The transition table of `sr` -/

/-- The clear mask of a `WR_SR` datum is its field `wdata[3:2]`, in place (R48). -/
theorem srClearMask_eq_field (wdata : Word) : srClearMask wdata = (wdata.extractLsb' 2 2).setWidth 32 <<< 2 := by
  apply word_ext
  intro j hj
  have hmask : srErrMask.getLsbD j = decide (2 ≤ j ∧ j < 4) := by
    interval_cases j <;> rfl
  rw [srClearMask, BitVec.getLsbD_and, hmask]
  by_cases hfield : 2 ≤ j ∧ j < 4
  · simp [hfield, hj, show j - 2 < 2 by omega, show 2 + (j - 2) = j by omega, show ¬ j < 2 by omega]
  · simp [hfield, hj]
    omega

/-- Of the datum of a `WR_SR` only `wdata[3:2]` counts (R72). -/
theorem srAfter_wrSr_congr {v w : Word} (h : v.extractLsb' 2 2 = w.extractLsb' 2 2) (sr : Word) :
    srAfter (.wrSr v) sr = srAfter (.wrSr w) sr := by
  rw [srAfter, srAfter, srClearMask_eq_field, srClearMask_eq_field, h]

/-- With `wdata[3:2]` 00 a `WR_SR` clears nothing. -/
theorem srAfter_wrSr_zero (sr : Word) : srAfter (.wrSr 0x0#32) sr = sr := by
  rw [srAfter, clearBits, show ~~~srClearMask 0x0#32 = BitVec.allOnes 32 by decide, BitVec.and_allOnes]

/-- The row of R85 that starts with this `sr`: the next one after `RD_DR`, after `WR_DR`, and after `WR_SR` with `wdata[3:2]` 01, 10, 11. -/
def statusRow (sr : Word) : Word × Word × Word × Word × Word × Word :=
  (sr, srAfter .rdDr sr, srAfter (.wrDr 0x0#32) sr, srAfter (.wrSr 0x4#32) sr, srAfter (.wrSr 0x8#32) sr, srAfter (.wrSr 0xC#32) sr)

/-- Settles O32: each row of the table is the `statusRow` of its first entry, for `sr` changes by `srAfter` alone; RXNE decides what
`WR_DR` does to `dr` and the link. -/
theorem statusTransitionTable : Obligations.StatusTransitionTable := by
  refine ⟨fun row hrow s hs => ?_, fun i s t h hreset hrdDr hwr => ?_, fun s => ?_⟩
  · have hcomputed : row ∈ reachableStatus.map statusRow := hrow
    obtain ⟨sr, -, rfl⟩ := List.mem_map.1 hcomputed
    obtain rfl : s.sr = sr := hs
    refine ⟨?_, fun w => ?_, fun w => ?_⟩
    · obtain ⟨t, ht⟩ := exec_isNext .rdDr s
      obtain ⟨-, hdr⟩ := exec_rdDr_data ht
      exact ⟨t, ht, exec_sr ht, hdr, exec_exchanges_nothing ht nofun⟩
    · obtain ⟨t, ht⟩ := exec_isNext (.wrDr w) s
      exact ⟨t, ht, exec_sr ht, fun hfull => exec_wrDr_full hfull ht, fun hempty => exec_wrDr_empty hempty ht⟩
    · obtain ⟨t, ht⟩ := exec_isNext (.wrSr w) s
      have hclear (v : Word) (hfield : w.extractLsb' 2 2 = v.extractLsb' 2 2) : t.sr = srAfter (.wrSr v) s.sr :=
        (exec_sr ht).trans (srAfter_wrSr_congr hfield s.sr)
      exact ⟨t, ht, exec_keeps_get ht (r := .dr) (List.mem_singleton.not.2 (by decide)), exec_exchanges_nothing ht nofun,
        hclear 0x4#32, hclear 0x8#32, hclear 0xC#32, fun hnone => (hclear 0x0#32 hnone).trans (srAfter_wrSr_zero s.sr)⟩
  · have hwrDr (w : Word) : i ≠ .wrDr w := (hwr w).1
    exact ⟨exec_keeps_register hreset h (r := .sr) (fun w => (hwr w).2) fun _ w => ⟨hrdDr, hwrDr w⟩,
      exec_keeps_register hreset h (r := .dr) hwrDr nofun, exec_exchanges_nothing h fun w hw => absurd hw (hwrDr w)⟩
  · obtain ⟨t, ht⟩ := exec_isNext .reset s
    obtain ⟨-, -, hsr, hdr, -⟩ := exec_reset_registers ht
    exact ⟨t, ht, hsr, hdr, exec_exchanges_nothing ht nofun⟩

/-! ## The data path and the chip-select decoder -/

/-- `WR_DR` drives no Chip-Select Line (R94). -/
theorem exec_wrDr_lineDrives {wdata : Word} {s t : State} (h : exec (.wrDr wdata) s = .next t) :
    lineDrivesOf t.trace = lineDrivesOf s.trace := by
  cases hrxne : srRxne s.sr
  · cases (exec_wrDr_of_empty hrxne wdata).symm.trans h; simp [lineDrivesOf]
  · cases (exec_wrDr_of_full hrxne wdata).symm.trans h; simp [lineDrivesOf]

/-- `WR_DR` sends the low byte of its datum or nothing, as RXNE says (R80). -/
theorem exec_wrDr_outbound {wdata : Word} {s t : State} (h : exec (.wrDr wdata) s = .next t) :
    (exchangesOf t.trace).map Prod.fst =
      (exchangesOf s.trace).map Prod.fst ++ if srRxne s.sr then [] else [trunc8 wdata] := by
  cases hrxne : srRxne s.sr
  · simp [exec_wrDr_empty_exchanges hrxne h]
  · simp [(exec_wrDr_full hrxne h).2]

/-- Where an answer is scheduled, `dr` after `WR_DR` is told by RXNE, the schedule and the old `dr` (R81, R82, R83). -/
theorem exec_wrDr_scheduled_dr {wdata : Word} {s t : State} {rx : Byte} {rest : List Byte} (h : exec (.wrDr wdata) s = .next t)
    (hscheduled : s.linkAnswers = rx :: rest) : t.dr = if srRxne s.sr then s.dr else zext32 rx := by
  cases hrxne : srRxne s.sr
  · cases (exec_wrDr_of_empty hrxne wdata).symm.trans h
    exact congrArg zext32 (linkAnswer_scheduled hscheduled _)
  · exact (exec_wrDr_full hrxne h).1

/-- Settles O42: `WR_CS` writes CS alone, and nothing that `WR_DR` does to `sr`, `irq`, the lines or the outbound bytes looks at `cs`. -/
theorem chipSelectAndDataPathAreIndependent : Obligations.ChipSelectAndDataPathAreIndependent := by
  intro s w c
  constructor
  · obtain ⟨t, ht⟩ := exec_isNext (.wrCs c) s
    exact ⟨t, ht, exec_sr ht, exec_keeps_get ht (r := .dr) (List.mem_singleton.not.2 (by decide)), exec_exchanges_nothing ht nofun,
      exec_keeps_linkAnswers ht nofun⟩
  · obtain ⟨t, ht⟩ := exec_isNext (.wrDr w) s
    obtain ⟨t', ht'⟩ := exec_isNext (.wrDr w) { s with cs := c }
    have hsr : t'.sr = t.sr := (exec_sr ht').trans (exec_sr ht).symm
    have hcr2 : t.cr2 = s.cr2 := exec_keeps_get ht (r := .cr2) (List.mem_pair.not.2 (by decide))
    have hcr2' : t'.cr2 = s.cr2 := exec_keeps_get ht' (r := .cr2) (List.mem_pair.not.2 (by decide))
    have hlines := exec_wrDr_lineDrives ht'
    refine ⟨t, t', ht, ht', hsr, exec_keeps_get ht' (r := .cs) (List.mem_pair.not.2 (by decide)), fun hsome => ?_,
      irq_of_cr2_sr_eq (hcr2'.trans hcr2.symm) hsr, hlines, ?_⟩
    · obtain ⟨rx, rest, hscheduled⟩ := List.exists_cons_of_ne_nil hsome
      rw [exec_wrDr_scheduled_dr ht hscheduled, exec_wrDr_scheduled_dr ht' hscheduled]
    · rw [exec_wrDr_outbound ht, exec_wrDr_outbound ht']

end Sys2Proof.Machine
end

section
/-! PROOFS. The chip-select decoder (spec/43_chip_select.md): the level of each line as a function of `cs`, and which operations drive the
lines. -/

namespace Sys2Proof.Machine

/-! ## The level of a line -/

/-- The four lines as one nibble: the complement of enables and polarities (R90). -/
theorem csLevel_eq_getLsbD_nibble (cs : Word) (line : Fin 4) :
    csLevel cs line = (~~~(cs.extractLsb' 0 4 &&& cs.extractLsb' 4 4)).getLsbD line.val := by
  simp [csLevel_eq_not_and, Nat.add_comm]

/-- A line is 0 exactly where its enable and its polarity are both 1 (R92). -/
theorem csLevel_eq_false_iff (cs : Word) (line : Fin 4) :
    csLevel cs line = false ↔ cs.getLsbD line.val = true ∧ cs.getLsbD (line.val + 4) = true := by
  rw [csLevel_eq_not_and, Bool.not_eq_false', Bool.and_eq_true]

/-- A line whose polarity is 0 is at 1 whether it is enabled or not (R93). -/
theorem csLevel_of_polarity_zero {cs : Word} {line : Fin 4} (h : cs.getLsbD (line.val + 4) = false) : csLevel cs line = true := by
  rw [csLevel_eq_not_and, h, Bool.and_false, Bool.not_false]

/-- The lines see all eight bits of a zero-extended byte (R92). -/
theorem csLevel_setWidth_eq_false_iff (b : Byte) (line : Fin 4) :
    csLevel (b.setWidth 32) line = false ↔ b.getLsbD line.val = true ∧ b.getLsbD (line.val + 4) = true := by
  have henable : (b.setWidth 32).getLsbD line.val = b.getLsbD line.val := by
    rw [BitVec.getLsbD_setWidth, decide_eq_true (by omega), Bool.true_and]
  have hpolarity : (b.setWidth 32).getLsbD (line.val + 4) = b.getLsbD (line.val + 4) := by
    rw [BitVec.getLsbD_setWidth, decide_eq_true (by omega), Bool.true_and]
  rw [csLevel_eq_false_iff, henable, hpolarity]

/-- Settles O48: a line is a function of its two bits of `cs`, which RESET makes 0 and `WR_CS` takes from the datum's low byte. -/
theorem linesAreTheDecoderOfCs : Obligations.LinesAreTheDecoderOfCs := by
  intro s line
  refine ⟨csLevel_eq_getLsbD_nibble s.cs line, csLevel_eq_false_iff s.cs line, csLevel_of_polarity_zero, ?_, fun b => ?_⟩
  · obtain ⟨t, ht⟩ := exec_isNext .reset s
    obtain ⟨-, -, -, -, hcs⟩ := exec_reset_registers ht
    refine ⟨t, ht, csLevel_of_polarity_zero ?_⟩
    rw [hcs, BitVec.getLsbD_zero]
  · refine ⟨_, exec_wrCs (b.setWidth 32) s, ?_⟩
    change csLevel (b.setWidth 32 &&& 0x000000FF#32) line = false ↔ _
    rw [csLevel_lowByte, csLevel_setWidth_eq_false_iff]

/-! ## What drives a line -/

/-- Re-deriving the four lines drives each once with its level (R91). -/
theorem driveLines_lineDrives (s : State) :
    lineDrivesOf s.driveLines.trace = lineDrivesOf s.trace ++ [(0, s.line 0), (1, s.line 1), (2, s.line 2), (3, s.line 3)] := by
  simp [lineDrivesOf, State.line_eq]

/-- An operation that is neither `WR_CS` nor RESET drives no line (R91). -/
theorem exec_lineDrives_nothing {i : Instr} {s t : State} (h : exec i s = .next t) (hwrCs : ∀ w, i ≠ .wrCs w)
    (hreset : i ≠ .reset) : lineDrivesOf t.trace = lineDrivesOf s.trace := by
  cases i with
  | rdCr1 | rdCr2 | rdSr | rdDr | rdCs | rdUndef _ => exact (read_events rfl h).2
  | wrCr1 w => cases h; rfl
  | wrCr2 w => cases h; exact (driveIrq_events (s.put .cr2 w)).2
  | wrSr w => cases h; exact (driveIrq_events (s.clearErrors w)).2
  | wrDr w => exact exec_wrDr_lineDrives h
  | wrCs w => exact absurd rfl (hwrCs w)
  | wrUndef offset w => cases h; exact (report_events s .badWrite offset (some w)).2
  | reset => exact absurd rfl hreset

/-- An operation that is neither `WR_CS` nor RESET neither drives nor changes a line, and keeps `cs` (R91). -/
theorem exec_keeps_lines {i : Instr} {s t : State} (h : exec i s = .next t) (hwrCs : ∀ w, i ≠ .wrCs w) (hreset : i ≠ .reset) :
    lineDrivesOf t.trace = lineDrivesOf s.trace ∧ t.cs = s.cs ∧ ∀ line : Fin 4, t.line line = s.line line := by
  have hcs : t.cs = s.cs := exec_keeps_register hreset h (r := .cs) hwrCs nofun
  exact ⟨exec_lineDrives_nothing h hwrCs hreset, hcs, line_of_cs_eq hcs⟩

/-- Settles O49: `WR_CS` and RESET end in re-deriving the four lines; every other operation keeps `cs`, of which the lines are a function. -/
theorem linesAreDrivenByCsWritesAndResetAlone : Obligations.LinesAreDrivenByCsWritesAndResetAlone := by
  intro i s
  obtain ⟨t, ht⟩ := exec_isNext i s
  refine ⟨t, ht, ?_⟩
  cases i with
  | wrCs w => cases ht; exact ⟨_, driveLines_lineDrives (s.put .cs (zext32 (trunc8 w))), .refl _⟩
  | reset => cases ht; exact ⟨_, driveLines_lineDrives s.resetRegisters, .refl _⟩
  | _ => exact exec_keeps_lines ht nofun nofun

end Sys2Proof.Machine
end

section
/-! PROOFS. Errors, the Interrupt Line and diagnostics (spec/60_exceptions.md): which operation raises an error flag, what depends on the
flags, the truth table of `irq` and its drives, and the independence from diagnostic reports. -/

namespace Sys2Proof.Machine

/-! ## Who raises an error flag -/

/-- OVERRUN is newly set by a `WR_DR` with RXNE 1 alone (R101). -/
theorem overrun_raised_by {i : Instr} {sr : Word} (hclear : srOverrun sr = false) (hset : srOverrun (srAfter i sr) = true) :
    (∃ w, i = .wrDr w) ∧ srRxne sr = true := by
  cases i with
  | wrDr w =>
    obtain ⟨-, -, -, hoverrun⟩ := flags_srAfter_wrDr w sr
    rw [hoverrun, hclear, Bool.false_or] at hset
    exact ⟨⟨w, rfl⟩, hset⟩
  | rdDr =>
    obtain ⟨-, -, -, hoverrun⟩ := flags_srAfter_rdDr sr
    rw [hoverrun, hclear] at hset
    cases hset
  | wrSr w =>
    obtain ⟨-, -, -, hoverrun⟩ := flags_srAfter_wrSr w sr
    rw [hoverrun, hclear, Bool.false_and] at hset
    cases hset
  | reset => rw [srAfter_reset] at hset; exact absurd hset (by decide)
  | _ => cases hclear.symm.trans hset

/-- UNDERRUN is newly set by an `RD_DR` with RXNE 0 alone (R102). -/
theorem underrun_raised_by {i : Instr} {sr : Word} (hclear : srUnderrun sr = false) (hset : srUnderrun (srAfter i sr) = true) :
    i = .rdDr ∧ srRxne sr = false := by
  cases i with
  | rdDr =>
    obtain ⟨-, -, hunderrun, -⟩ := flags_srAfter_rdDr sr
    rw [hunderrun, hclear, Bool.false_or, Bool.not_eq_true'] at hset
    exact ⟨rfl, hset⟩
  | wrDr w =>
    obtain ⟨-, -, hunderrun, -⟩ := flags_srAfter_wrDr w sr
    rw [hunderrun, hclear] at hset
    cases hset
  | wrSr w =>
    obtain ⟨-, -, hunderrun, -⟩ := flags_srAfter_wrSr w sr
    rw [hunderrun, hclear, Bool.false_and] at hset
    cases hset
  | reset => rw [srAfter_reset] at hset; exact absurd hset (by decide)
  | _ => cases hclear.symm.trans hset

/-- Settles O37: a newly set flag tells the operation, and the two flags name different ones. -/
theorem oneOperationRaisesAtMostOneError : Obligations.OneOperationRaisesAtMostOneError := by
  intro i s t h
  rw [exec_sr h]
  refine ⟨overrun_raised_by, underrun_raised_by, fun ⟨hoClear, hoSet, huClear, huSet⟩ => ?_⟩
  obtain ⟨⟨w, rfl⟩, -⟩ := overrun_raised_by hoClear hoSet
  obtain ⟨hread, -⟩ := underrun_raised_by huClear huSet
  cases hread

/-! ## What depends on the error flags -/

/-- Two values of `sr` that agree on every bit but OVERRUN and UNDERRUN (R104). -/
def AgreeOffErrors (v w : Word) : Prop := ∀ j < 32, j ≠ 2 → j ≠ 3 → v.getLsbD j = w.getLsbD j

theorem AgreeOffErrors.rxne {v w : Word} (h : AgreeOffErrors v w) : srRxne v = srRxne w :=
  h 0 (by decide) (by decide) (by decide)

/-- Replacing the two error bits leaves the other bits of a word as they were. -/
theorem agreeOffErrors_replaced (v m : Word) : AgreeOffErrors ((v &&& 0xFFFFFFF3#32) ||| (m &&& 0x0000000C#32)) v := by
  intro j hj h2 h3
  have hmask : (0x0000000C#32 : Word).getLsbD j = false := by
    rw [show (0x0000000C#32 : Word).getLsbD j = (decide (j = 2) || decide (j = 3)) by interval_cases j <;> rfl,
      decide_eq_false h2, decide_eq_false h3, Bool.or_false]
  have hcomplement : (0xFFFFFFF3#32 : Word).getLsbD j = true := by
    rw [show (0xFFFFFFF3#32 : Word) = ~~~0x0000000C#32 by decide, BitVec.getLsbD_not, hmask, decide_eq_true hj, Bool.true_and,
      Bool.not_false]
  rw [BitVec.getLsbD_or, BitVec.getLsbD_and, BitVec.getLsbD_and, hcomplement, hmask, Bool.and_true, Bool.and_false, Bool.or_false]

/-- No operation lets an error flag reach another bit of `sr`. -/
theorem agreeOffErrors_srAfter {v w : Word} (h : AgreeOffErrors v w) (i : Instr) :
    AgreeOffErrors (srAfter i v) (srAfter i w) := by
  intro j hj h2 h3
  cases i with
  | rdDr => rw [getLsbD_srAfter_rdDr _ _ hj, getLsbD_srAfter_rdDr _ _ hj, h j hj h2 h3, h.rxne]
  | wrSr wdata => rw [getLsbD_srAfter_wrSr _ _ _ hj, getLsbD_srAfter_wrSr _ _ _ hj, h j hj h2 h3]
  | wrDr wdata => rw [getLsbD_srAfter_wrDr _ _ _ hj, getLsbD_srAfter_wrDr _ _ _ hj, h j hj h2 h3, h.rxne]
  | reset => rfl
  | _ => exact h j hj h2 h3

/-- Two histories with the same Serial Link exchanges and the same drives of the Chip-Select Lines. -/
def SameExchangesAndLines (trace trace' : List Event) : Prop :=
  exchangesOf trace' = exchangesOf trace ∧ lineDrivesOf trace' = lineDrivesOf trace

theorem SameExchangesAndLines.refl (trace : List Event) : SameExchangesAndLines trace trace := ⟨rfl, rfl⟩

/-- The level a drive of `irq` carries is neither an exchange nor a drive of a line. -/
theorem sameExchangesAndLines_irqDrive (trace : List Event) (level level' : Bool) :
    SameExchangesAndLines (trace ++ [.irqDrive level]) (trace ++ [.irqDrive level']) := by
  simp [SameExchangesAndLines, exchangesOf, lineDrivesOf]

/-- The same after an exchange. -/
theorem sameExchangesAndLines_exchange_irqDrive (trace : List Event) (tx rx : Byte) (level level' : Bool) :
    SameExchangesAndLines (trace ++ [.exchange tx rx, .irqDrive level]) (trace ++ [.exchange tx rx, .irqDrive level']) := by
  simp [SameExchangesAndLines, exchangesOf, lineDrivesOf]

/-- Of `sr` an operation tests RXNE alone: with any other `sr` of that RXNE it leads to the same state but for `sr`, the answer of
`RD_SR` and the levels of `irq` (R80, R104). -/
theorem exec_with_sr {i : Instr} {s t : State} (h : exec i s = .next t) {v : Word} (hrxne : srRxne v = srRxne s.sr) :
    ∃ rdata trace, exec i { s with sr := v } = .next { t with sr := srAfter i v, rdata, trace } ∧
      (i ≠ .rdSr → rdata = t.rdata) ∧ SameExchangesAndLines t.trace trace := by
  cases i with
  | rdSr => cases h; exact ⟨some v, s.trace, rfl, fun hne => absurd rfl hne, .refl _⟩
  | rdDr =>
    obtain ⟨hdata, -⟩ := exec_rdDr_data h
    refine ⟨some s.dr, s.trace ++ [.irqDrive (irqLevel s.cr2 (srAfter .rdDr v))], ?_, fun _ => hdata.symm, ?_⟩
    · cases h
      simp only [exec, execRdDr, consumeOrUnderrun_eq]
      rfl
    · rw [exec_rdDr_trace h]
      exact sameExchangesAndLines_irqDrive s.trace _ _
  | wrCr2 w => cases h; exact ⟨none, _, rfl, fun _ => rfl, sameExchangesAndLines_irqDrive s.trace _ _⟩
  | wrSr w => cases h; exact ⟨none, _, rfl, fun _ => rfl, sameExchangesAndLines_irqDrive s.trace _ _⟩
  | wrDr w =>
    cases hr : srRxne s.sr
    · have hv : srRxne v = false := hrxne.trans hr
      have hsr : srAfter (.wrDr w) v = v ||| 0x3#32 := by simp [srAfter, hv]
      cases (exec_wrDr_of_empty hr w).symm.trans h
      rw [hsr]
      exact ⟨none, _, exec_wrDr_of_empty (s := { s with sr := v }) hv w, fun _ => rfl,
        sameExchangesAndLines_exchange_irqDrive s.trace _ _ _ _⟩
    · have hv : srRxne v = true := hrxne.trans hr
      have hsr : srAfter (.wrDr w) v = v ||| 0x8#32 := by simp [srAfter, hv, setBits, srOverrunMask]
      cases (exec_wrDr_of_full hr w).symm.trans h
      rw [hsr]
      exact ⟨none, _, exec_wrDr_of_full (s := { s with sr := v }) hv w, fun _ => rfl,
        sameExchangesAndLines_irqDrive s.trace _ _⟩
  | _ => cases h; exact ⟨_, _, rfl, fun _ => rfl, .refl _⟩

/-- Settles O41: the two values of `sr` have the same RXNE, and their difference stays in the two error bits. -/
theorem errorFlagsGateNothing : Obligations.ErrorFlagsGateNothing := by
  intro i s m
  have hagree := agreeOffErrors_replaced s.sr m
  obtain ⟨t, ht⟩ := exec_isNext i s
  obtain ⟨rdata, trace, ht', hrdata, hexchanges, hlines⟩ := exec_with_sr ht hagree.rxne
  refine ⟨t, _, ht, ht', rfl, rfl, rfl, rfl, rfl, ?_, hexchanges, hlines, fun _ => rfl, hrdata⟩
  rw [exec_sr ht]
  exact agreeOffErrors_srAfter hagree i

/-! ## The truth table of `irq` -/

/-- The row of R108 that the three enables `cr2[7:5]` select, bit `n` for `sr[3:0]` = `n`. -/
def irqRow (enables : BitVec 3) : BitVec 16 :=
  match enables.toNat with
  | 0 => 0x0000#16 | 1 => 0xFFF0#16 | 2 => 0xAAAA#16 | 3 => 0xFFFA#16
  | 4 => 0xCCCC#16 | 5 => 0xFFFC#16 | 6 => 0xEEEE#16 | _ => 0xFFFE#16

/-- The combinator of R105 on the seven bits as two fields: enables TXEIE, RXNEIE, ERRIE from bit 2 down, flags as in `sr[3:0]`. -/
def irqOfFields (enables : BitVec 3) (flags : Nibble) : Bool :=
  (enables.getLsbD 2 && flags.getLsbD 1) || (enables.getLsbD 1 && flags.getLsbD 0) ||
    (enables.getLsbD 0 && (flags.getLsbD 3 || flags.getLsbD 2))

/-- `IrqLevel` sees of the two registers only the seven bits (R105). -/
theorem irqLevel_eq_irqOfFields (cr2 sr : Word) : irqLevel cr2 sr = irqOfFields (cr2.extractLsb' 5 3) (sr.extractLsb' 0 4) := by
  simp [irqLevel, irqOfFields, cr2Txeie, cr2Rxneie, cr2Errie, srTxe, srRxne, srOverrun, srUnderrun]

/-- The 128 entries of the table of R108. -/
theorem irqOfFields_eq_irqRow : ∀ (enables : BitVec 3) (flags : Nibble),
    irqOfFields enables flags = (irqRow enables).getLsbD flags.toNat := by
  decide

/-- Settles O44: the level is the combinator of two fields of seven bits, whose 128 values are the table's. -/
theorem irqIsTheTruthTable : Obligations.IrqIsTheTruthTable := fun s =>
  (irqLevel_eq_irqOfFields s.cr2 s.sr).trans (irqOfFields_eq_irqRow _ _)

/-! ## The drives of `irq` -/

/-- Re-evaluating the Interrupt Line drives it once with its level (R107). -/
theorem driveIrq_irqDrives (s : State) : irqDrivesOf s.driveIrq.trace = irqDrivesOf s.trace ++ [s.irq] := by
  simp [irqDrivesOf, State.irq_eq]

/-- Driving the four lines does not drive `irq` (R91). -/
theorem driveLines_irqDrives (s : State) : irqDrivesOf s.driveLines.trace = irqDrivesOf s.trace := by
  simp [irqDrivesOf]

/-- A diagnostic report, emitted or not, is no drive of `irq` (R103). -/
theorem report_irqDrives (s : State) (kind : DiagKind) (offset : Word) (wdata : Option Word) :
    irqDrivesOf (s.report kind offset wdata).trace = irqDrivesOf s.trace := by
  rw [State.report_trace]
  split
  · simp [irqDrivesOf]
  · rw [List.append_nil]

/-- `RD_DR` drives `irq` once with the level it then has (R107). -/
theorem exec_rdDr_irqDrives {s t : State} (h : exec .rdDr s = .next t) :
    irqDrivesOf t.trace = irqDrivesOf s.trace ++ [t.irq] := by
  rw [exec_rdDr_trace h]
  simp [irqDrivesOf]

/-- Both branches of `WR_DR` drive `irq` once with the level it then has (R107). -/
theorem exec_wrDr_irqDrives {wdata : Word} {s t : State} (h : exec (.wrDr wdata) s = .next t) :
    irqDrivesOf t.trace = irqDrivesOf s.trace ++ [t.irq] := by
  cases hrxne : srRxne s.sr
  · cases (exec_wrDr_of_empty hrxne wdata).symm.trans h; simp [irqDrivesOf, State.irq_eq]
  · cases (exec_wrDr_of_full hrxne wdata).symm.trans h; simp [irqDrivesOf, State.irq_eq]

/-- An operation that writes neither input of `irq` leaves the level alone and does not drive it (R107). -/
theorem exec_keeps_irq {i : Instr} {s t : State} (h : exec i s = .next t) (hcr2 : .cr2 ∉ registersWritten i)
    (hsr : .sr ∉ registersWritten i) :
    irqDrivesOf t.trace = irqDrivesOf s.trace ∧ t.irq = s.irq ∧ t.cr2 = s.cr2 ∧ t.sr = s.sr := by
  have hcr2' : t.cr2 = s.cr2 := exec_keeps_get h hcr2
  have hsr' : t.sr = s.sr := exec_keeps_get h hsr
  refine ⟨?_, irq_of_cr2_sr_eq hcr2' hsr', hcr2', hsr'⟩
  cases i with
  | rdCr1 | rdCr2 | rdSr | rdCs | wrCr1 _ => cases h; rfl
  | rdUndef offset => cases h; exact report_irqDrives s .badRead offset none
  | wrCs w => cases h; exact driveLines_irqDrives (s.put .cs (zext32 (trunc8 w)))
  | wrUndef offset w => cases h; exact report_irqDrives s .badWrite offset (some w)
  | wrCr2 _ => exact absurd (List.mem_singleton_self _) hcr2
  | rdDr | wrSr _ | wrDr _ => exact absurd List.mem_cons_self hsr
  | reset => exact absurd (show Reg.sr ∈ allRegs by decide) hsr

/-! ## The directions of `irq` after a read of DR -/

/-- An `RD_DR` with RXNE 0 clears no cause that was present, so it cannot lower `irq` (R107). -/
theorem irq_after_underrun {s t : State} (h : exec .rdDr s = .next t) (hempty : srRxne s.sr = false) (hirq : s.irq = true) :
    t.irq = true := by
  have hcr2 : t.cr2 = s.cr2 := exec_keeps_get h (r := .cr2) (List.mem_singleton.not.2 (by decide))
  obtain ⟨-, htxe, hunderrun, hoverrun⟩ := flags_srAfter_rdDr s.sr
  rw [State.irq_iff, exec_sr h, hcr2, htxe, hunderrun, hoverrun, Bool.or_eq_true]
  obtain htx | ⟨-, hfull⟩ | ⟨herrie, herror⟩ := s.irq_iff.1 hirq
  · exact .inl htx
  · cases hempty.symm.trans hfull
  · exact .inr (.inr ⟨herrie, herror.imp_right .inl⟩)

/-- An `RD_DR` with RXNE 1 only takes the cause RXNE away, so it cannot raise `irq` (R107). -/
theorem irq_of_irq_after_consume {s t : State} (h : exec .rdDr s = .next t) (hfull : srRxne s.sr = true) (hirq : t.irq = true) :
    s.irq = true := by
  have hcr2 : t.cr2 = s.cr2 := exec_keeps_get h (r := .cr2) (List.mem_singleton.not.2 (by decide))
  obtain ⟨hrxne, htxe, hunderrun, hoverrun⟩ := flags_srAfter_rdDr s.sr
  rw [State.irq_iff, exec_sr h, hcr2, hrxne, htxe, hunderrun, hoverrun, hfull, Bool.not_true, Bool.or_false] at hirq
  exact s.irq_iff.2 (hirq.imp_right (.imp_left fun ⟨_, hset⟩ => absurd hset Bool.false_ne_true))

/-- Settles O45: four operations end by driving `irq`, RESET writes its inputs without a drive, and no other one writes an input. -/
theorem irqChangesOnlyAsStated : Obligations.IrqChangesOnlyAsStated := by
  intro i s
  obtain ⟨t, ht⟩ := exec_isNext i s
  refine ⟨t, ht, ?_⟩
  cases i with
  | wrCr2 w => cases ht; exact driveIrq_irqDrives (s.put .cr2 w)
  | wrSr w => exact ⟨by cases ht; exact driveIrq_irqDrives (s.clearErrors w), irq_of_irq_after_wrSr ht⟩
  | rdDr => exact ⟨exec_rdDr_irqDrives ht, irq_after_underrun ht, irq_of_irq_after_consume ht⟩
  | wrDr w => exact ⟨exec_wrDr_irqDrives ht, irq_after_wrDr_of_irq ht⟩
  | reset => exact ⟨by cases ht; exact driveLines_irqDrives s.resetRegisters, exec_reset_irq ht⟩
  | rdCr1 | rdCr2 | rdSr | rdCs | rdUndef _ | wrUndef _ _ => exact exec_keeps_irq ht List.not_mem_nil List.not_mem_nil
  | wrCr1 _ | wrCs _ => exact exec_keeps_irq ht (List.mem_singleton.not.2 (by decide)) (List.mem_singleton.not.2 (by decide))

/-! ## Diagnostic reports -/

/-- An operation appends events to the past, and of that past it looks at the observed history alone: with another past of the same
observed history it leads to the same state but for the past, and sends out the same events (R83, R103). -/
theorem exec_with_past {i : Instr} {s t : State} (h : exec i s = .next t) {past : List Event}
    (hpast : observedHistory past = observedHistory s.trace) :
    ∃ sent, t.trace = s.trace ++ sent ∧ exec i { s with trace := past } = .next { t with trace := past ++ sent } := by
  cases i with
  | rdDr =>
    refine ⟨[.irqDrive t.irq], exec_rdDr_trace h, ?_⟩
    cases h
    simp only [exec, execRdDr, consumeOrUnderrun_eq]
    rfl
  | wrDr w =>
    cases hrxne : srRxne s.sr
    · cases (exec_wrDr_of_empty hrxne w).symm.trans h
      refine ⟨_, rfl, (exec_wrDr_of_empty (s := { s with trace := past }) hrxne w).trans ?_⟩
      rw [linkAnswer_congr s past hpast]
    · cases (exec_wrDr_of_full hrxne w).symm.trans h
      exact ⟨_, rfl, exec_wrDr_of_full (s := { s with trace := past }) hrxne w⟩
  | rdCr1 | rdCr2 | rdSr | rdCs | wrCr1 _ =>
    cases h
    exact ⟨[], (List.append_nil _).symm, by rw [List.append_nil]; rfl⟩
  | _ => cases h; exact ⟨_, rfl, rfl⟩

/-- Settles O53: the same events are sent out after both pasts, and the registers behind the outputs are the same. -/
theorem diagnosticsAffectNothing : Obligations.DiagnosticsAffectNothing := by
  intro i s past hpast
  obtain ⟨t, ht⟩ := exec_isNext i s
  obtain ⟨sent, hsent, ht'⟩ := exec_with_past ht hpast
  refine ⟨t, _, ht, ht', rfl, ?_, sameOutputs_of_sameRegisters ⟨rfl, rfl, rfl, rfl, rfl⟩⟩
  rw [hsent, observedHistory_append, observedHistory_append, hpast]

end Sys2Proof.Machine
end

section
/-! PROOFS. Reset and hazards (spec/70_reset_and_hazards.md): the reset operation and the reads after it, what is lost without reading DR
and how it is recovered, the causes of `irq` as levels, and a harness's snapshot. -/

namespace Sys2Proof.Machine

/-! ## The reset operation -/

/-- The reset value of CS enables no line, so every line is at 1 (R93). -/
theorem resetRegisters_line (s : State) (line : Fin 4) : s.resetRegisters.line line = true :=
  csLevel_of_polarity_zero BitVec.getLsbD_zero

/-- Re-deriving the lines where all four are at 1 drives each with 1 (R91). -/
theorem driveLines_of_lines_high {s : State} (h : ∀ line, s.line line = true) :
    s.driveLines = s.emit [.lineDrive 0 true, .lineDrive 1 true, .lineDrive 2 true, .lineDrive 3 true] := by
  simp only [State.line_eq] at h
  simp only [State.driveLines, h]

/-- The whole next state of RESET: the registers, and one drive of each line with level 1 (R120). -/
theorem exec_reset_eq (s : State) :
    exec .reset s = .next
      { cr1 := 0x00000000#32, cr2 := 0x00000000#32, sr := 0x00000002#32, dr := 0x0000000C#32, cs := 0x00000000#32,
        requests := s.requests, rdata := none, linkAnswers := s.linkAnswers,
        trace := s.trace ++ [.lineDrive 0 true, .lineDrive 1 true, .lineDrive 2 true, .lineDrive 3 true] } := by
  rw [exec, execReset, driveLines_of_lines_high (resetRegisters_line s)]
  rfl

/-- Resets of any two states leave the same registers (R120). -/
theorem sameRegisters_of_resets {s t u v : State} (hs : exec .reset s = .next t) (hu : exec .reset u = .next v) :
    SameRegisters t v := by
  obtain ⟨hcr1, hcr2, hsr, hdr, hcs⟩ := exec_reset_registers hs
  obtain ⟨hcr1', hcr2', hsr', hdr', hcs'⟩ := exec_reset_registers hu
  exact ⟨hcr1'.trans hcr1.symm, hcr2'.trans hcr2.symm, hsr'.trans hsr.symm, hdr'.trans hdr.symm, hcs'.trans hcs.symm⟩

/-- The first `RD_DR` after a reset returns the reset value of DR and finds RXNE 0, so it sets UNDERRUN (R120, R122). -/
theorem exec_rdDr_after_reset {s t : State} (h : exec .reset s = .next t) :
    ∃ u, exec .rdDr t = .next u ∧ u.rdata = some 0x0000000C#32 ∧ u.sr = 0x00000006#32 := by
  obtain ⟨-, -, hsr, hdr, -⟩ := exec_reset_registers h
  obtain ⟨u, hu⟩ := exec_isNext .rdDr t
  obtain ⟨hdata, -⟩ := exec_rdDr_data hu
  refine ⟨u, hu, by rw [hdata, hdr], ?_⟩
  rw [exec_sr hu, hsr]
  decide

/-- Every line is at 1 after a reset (R122). -/
theorem exec_reset_line {s t : State} (h : exec .reset s = .next t) (line : Fin 4) : t.line line = true := by
  cases h
  exact resetRegisters_line s line

/-- Settles O13: RESET forgets the registers it finds, and `WR_CR1` writes CR1 alone. -/
theorem resetOperationWhole : Obligations.ResetOperationWhole := by
  intro s
  refine ⟨⟨_, exec_reset_eq s, .refl _⟩, fun t ht => ⟨exec_reset_irq ht, ?_, exec_rdDr_after_reset ht⟩, fun w t ht => ?_⟩
  · obtain ⟨u, hu⟩ := exec_isNext .reset t
    exact ⟨u, hu, sameRegisters_of_resets ht hu⟩
  · have hkept : ∀ r, r ≠ .cr1 → t.get r = s.get r := fun r hr => exec_keeps_get ht (List.mem_singleton.not.2 hr)
    exact ⟨hkept .cr2 (by decide), hkept .sr (by decide), hkept .dr (by decide), hkept .cs (by decide)⟩

/-- Settles O14: the plain reads return the registers that RESET left, and `RD_DR` underruns. -/
theorem readsAfterReset : Obligations.ReadsAfterReset := by
  intro s t ht
  obtain ⟨hcr1, hcr2, hsr, -, hcs⟩ := exec_reset_registers ht
  have hread (r : Reg) {v : Word} (hr : r ≠ .dr) (hv : t.get r = v) :
      ∃ u, exec (accessOf false r 0#32) t = .next u ∧ u.rdata = some v := ⟨_, exec_plainRead_of_get hr hv, rfl⟩
  obtain ⟨u, hu, hdata, hunderrun⟩ := exec_rdDr_after_reset ht
  exact ⟨hread .sr (by decide) hsr, ⟨u, hu, hdata, by rw [hunderrun]; decide⟩, hread .cr1 (by decide) hcr1,
    hread .cr2 (by decide) hcr2, hread .cs (by decide) hcs, exec_reset_line ht, exec_reset_irq ht⟩

/-! ## Writing DR without reading it -/

/-- A sequence leads where its later operations lead from the state after its first one. -/
theorem execAll_cons {i : Instr} {is : List Instr} {s t u : State} (h : exec i s = .next t) (his : execAll is t = .next u) :
    execAll (i :: is) s = .next u :=
  (execAll_cons_of_exec h is).trans his

/-- RXNE and OVERRUN after a `WR_DR`: the first is 1, and the second records that RXNE was 1 already (R81, R82). -/
theorem exec_wrDr_flags {wdata : Word} {s t : State} (h : exec (.wrDr wdata) s = .next t) :
    srRxne t.sr = true ∧ srOverrun t.sr = (srOverrun s.sr || srRxne s.sr) := by
  obtain ⟨hrxne, -, -, hoverrun⟩ := flags_srAfter_wrDr wdata s.sr
  rw [exec_sr h]
  exact ⟨hrxne, hoverrun⟩

/-- While RXNE is 1, writes of DR change neither `dr` nor the exchanges, and OVERRUN is 1 after the last unless it was 0 and nothing
was written (R81). -/
theorem execAll_wrDr_of_full (later : List Word) {s : State} (hfull : srRxne s.sr = true) :
    ∃ t, execAll (later.map .wrDr) s = .next t ∧ t.dr = s.dr ∧ exchangesOf t.trace = exchangesOf s.trace ∧
      (srOverrun s.sr = true ∨ later ≠ [] → srOverrun t.sr = true) := by
  induction later generalizing s with
  | nil => exact ⟨s, rfl, rfl, rfl, fun h => h.resolve_right fun hne => hne rfl⟩
  | cons w ws ih =>
    obtain ⟨u, hu⟩ := exec_isNext (.wrDr w) s
    obtain ⟨hrxne, hoverrun⟩ := exec_wrDr_flags hu
    rw [hfull, Bool.or_true] at hoverrun
    obtain ⟨hdr, hexchanges⟩ := exec_wrDr_full hfull hu
    obtain ⟨t, ht, hdr', hexchanges', hoverrun'⟩ := ih hrxne
    exact ⟨t, execAll_cons hu ht, hdr'.trans hdr, hexchanges'.trans hexchanges, fun _ => hoverrun' (.inl hoverrun)⟩

/-- Settles O38: the first write exchanges and leaves RXNE 1, under which the later ones are dropped. -/
theorem withoutReadingOnlyTheFirstByteIsSent : Obligations.WithoutReadingOnlyTheFirstByteIsSent := by
  intro s first later hempty
  obtain ⟨u, hu⟩ := exec_isNext (.wrDr first) s
  obtain ⟨rx, hdr, hexchanges⟩ := exec_wrDr_empty hempty hu
  obtain ⟨hrxne, -⟩ := exec_wrDr_flags hu
  obtain ⟨t, ht, hdr', hexchanges', hoverrun⟩ := execAll_wrDr_of_full later hrxne
  exact ⟨t, rx, execAll_cons hu ht, hexchanges'.trans hexchanges, hdr'.trans hdr, fun hlater => hoverrun (.inr hlater)⟩

/-! ## Recovery from an overrun -/

/-- `RD_DR` clears RXNE, keeps OVERRUN and makes no exchange (R63). -/
theorem exec_rdDr_flags {s t : State} (h : exec .rdDr s = .next t) :
    srRxne t.sr = false ∧ srOverrun t.sr = srOverrun s.sr ∧ exchangesOf t.trace = exchangesOf s.trace := by
  obtain ⟨hrxne, -, -, hoverrun⟩ := flags_srAfter_rdDr s.sr
  rw [exec_sr h]
  exact ⟨hrxne, hoverrun, exec_exchanges_nothing h nofun⟩

/-- `WR_SR` 0x8 clears OVERRUN, keeps RXNE and `dr`, and makes no exchange (R72). -/
theorem exec_wrSr_overrun_flags {s t : State} (h : exec (.wrSr 0x8#32) s = .next t) :
    srRxne t.sr = srRxne s.sr ∧ srOverrun t.sr = false ∧ t.dr = s.dr ∧ exchangesOf t.trace = exchangesOf s.trace := by
  obtain ⟨hrxne, -, -, hoverrun⟩ := flags_srAfter_wrSr 0x8#32 s.sr
  rw [exec_sr h]
  exact ⟨hrxne, hoverrun.trans (Bool.and_false _), exec_keeps_get h (r := .dr) (List.mem_singleton.not.2 (by decide)),
    exec_exchanges_nothing h nofun⟩

/-- An error flag and ERRIE are a cause of `irq` (R105). -/
theorem irq_of_error {s : State} (herrie : cr2Errie s.cr2 = true) (herror : srOverrun s.sr = true ∨ srUnderrun s.sr = true) :
    s.irq = true :=
  s.irq_iff.2 (.inr (.inr ⟨herrie, herror⟩))

/-- Settles O39: `RD_DR` clears RXNE and not OVERRUN, `WR_SR` 0x8 clears OVERRUN and not RXNE, and RXNE alone decides what the next
`WR_DR` does. -/
theorem overrunRecovery : Obligations.OverrunRecovery := by
  intro s w hfull hoverrun
  obtain ⟨r, hr⟩ := exec_isNext .rdDr s
  obtain ⟨hdata, -⟩ := exec_rdDr_data hr
  obtain ⟨hrRxne, hrOverrun, hrExchanges⟩ := exec_rdDr_flags hr
  rw [hoverrun] at hrOverrun
  obtain ⟨c, hc⟩ := exec_isNext (.wrSr 0x8#32) s
  obtain ⟨hcRxne, hcOverrun, hcDr, hcExchanges⟩ := exec_wrSr_overrun_flags hc
  rw [hfull] at hcRxne
  obtain ⟨rc, hrc⟩ := exec_isNext (.wrSr 0x8#32) r
  obtain ⟨hrcRxne, hrcOverrun, -, hrcExchanges⟩ := exec_wrSr_overrun_flags hrc
  rw [hrRxne] at hrcRxne
  refine ⟨?bothOrders, ?otherOrder, ?writeAfterBoth, ?writeAfterClear, ?readAlone, ?writeAfterRead, ?readOfSr⟩
  case bothOrders => exact ⟨rc, execAll_cons hr (execAll_cons hrc rfl), hrcRxne, hrcOverrun⟩
  case otherOrder =>
    obtain ⟨cr, hcr⟩ := exec_isNext .rdDr c
    obtain ⟨hdata', -⟩ := exec_rdDr_data hcr
    obtain ⟨hrxne', hoverrun', -⟩ := exec_rdDr_flags hcr
    exact ⟨cr, execAll_cons hc (execAll_cons hcr rfl), by rw [hdata', hcDr], hrxne', hoverrun'.trans hcOverrun⟩
  case writeAfterBoth =>
    obtain ⟨t, ht⟩ := exec_isNext (.wrDr w) rc
    obtain ⟨-, hoverrun'⟩ := exec_wrDr_flags ht
    obtain ⟨rx, -, hexchanges⟩ := exec_wrDr_empty hrcRxne ht
    rw [hrcOverrun, hrcRxne] at hoverrun'
    rw [hrcExchanges, hrExchanges] at hexchanges
    exact ⟨t, execAll_cons hr (execAll_cons hrc (execAll_cons ht rfl)), hoverrun', _, hexchanges⟩
  case writeAfterClear =>
    obtain ⟨t, ht⟩ := exec_isNext (.wrDr w) c
    obtain ⟨-, hoverrun'⟩ := exec_wrDr_flags ht
    obtain ⟨hdr, hexchanges⟩ := exec_wrDr_full hcRxne ht
    exact ⟨t, execAll_cons hc (execAll_cons ht rfl), by rw [hoverrun', hcRxne, Bool.or_true], hdr.trans hcDr,
      hexchanges.trans hcExchanges⟩
  case readAlone =>
    have hcr2 : r.cr2 = s.cr2 := exec_keeps_get hr (r := .cr2) (List.mem_singleton.not.2 (by decide))
    exact ⟨r, execAll_cons hr rfl, hdata, hrRxne, hrOverrun,
      fun herrie => irq_of_error (by rw [hcr2]; exact herrie) (.inl hrOverrun)⟩
  case writeAfterRead =>
    obtain ⟨t, ht⟩ := exec_isNext (.wrDr w) r
    obtain ⟨rx, -, hexchanges⟩ := exec_wrDr_empty hrRxne ht
    rw [hrExchanges] at hexchanges
    exact ⟨t, execAll_cons hr (execAll_cons ht rfl), _, hexchanges⟩
  case readOfSr =>
    obtain ⟨t, ht⟩ := exec_isNext .rdSr s
    exact ⟨t, execAll_cons ht rfl, exec_sr ht⟩

/-! ## The causes of `irq` as levels -/

/-- Settles O46: such an operation keeps CR2 and the invariant, under which TXEIE alone holds the line. -/
theorem txeieHoldsTheLine : Obligations.TxeieHoldsTheLine := by
  intro s hinv htxeie
  refine ⟨irq_of_txeie hinv htxeie, fun i hreset hwrCr2 => ?_⟩
  obtain ⟨t, ht⟩ := exec_isNext i s
  have hcr2 : t.cr2 = s.cr2 := exec_keeps_register hreset ht (r := .cr2) hwrCr2 nofun
  have htxeie' : cr2Txeie t.cr2 = true := by rw [hcr2]; exact htxeie
  exact ⟨t, ht, irq_of_txeie (exec_keeps_regInv hinv ht) htxeie', htxeie'⟩

/-- Of two error flags that are both set, a `WR_SR` whose datum lacks one of the two clear bits leaves one set (R72, R135). -/
theorem error_after_wrSr {wdata : Word} {s t : State} (h : exec (.wrSr wdata) s = .next t) (hoverrun : srOverrun s.sr = true)
    (hunderrun : srUnderrun s.sr = true) (hnotBoth : ¬ (wdata.getLsbD 2 = true ∧ wdata.getLsbD 3 = true)) :
    srOverrun t.sr = true ∨ srUnderrun t.sr = true := by
  obtain ⟨-, -, hunderrun', hoverrun'⟩ := flags_srAfter_wrSr wdata s.sr
  rw [exec_sr h, hoverrun', hunderrun', hoverrun, hunderrun, Bool.true_and, Bool.true_and]
  obtain hkept | hkept := not_and_or.1 hnotBoth
  · exact .inr (by rw [Bool.eq_false_of_not_eq_true hkept, Bool.not_false])
  · exact .inl (by rw [Bool.eq_false_of_not_eq_true hkept, Bool.not_false])

/-- With RXNEIE the one enable that is set, `irq` is RXNE (R105). -/
theorem irq_eq_rxne_of_rxneie_alone {s : State} (hrxneie : cr2Rxneie s.cr2 = true) (htxeie : cr2Txeie s.cr2 = false)
    (herrie : cr2Errie s.cr2 = false) : s.irq = srRxne s.sr := by
  rw [State.irq_eq, irqLevel, hrxneie, htxeie, herrie]
  simp

/-- Settles O47: ERRIE finds the error flags still set, a `WR_SR` leaves a flag it does not clear, and `RD_DR` clears RXNE. -/
theorem interruptCausesAreLevels : Obligations.InterruptCausesAreLevels := by
  intro s w
  refine ⟨fun herror herrie => ?_, fun hoverrun hunderrun herrie hnotBoth => ?_, fun hrxneie hfull htxeie herrie => ?_⟩
  · obtain ⟨t, ht⟩ := exec_isNext (.wrCr2 w) s
    have hcr2 : t.cr2 = w := by cases ht; rfl
    refine ⟨t, ht, irq_of_error (by rw [hcr2]; exact herrie) ?_⟩
    rw [exec_sr ht]
    exact herror
  · obtain ⟨t, ht⟩ := exec_isNext (.wrSr w) s
    have hcr2 : t.cr2 = s.cr2 := exec_keeps_get ht (r := .cr2) (List.mem_singleton.not.2 (by decide))
    exact ⟨t, ht, irq_of_error (by rw [hcr2]; exact herrie) (error_after_wrSr ht hoverrun hunderrun hnotBoth)⟩
  · obtain ⟨t, ht⟩ := exec_isNext .rdDr s
    have hcr2 : t.cr2 = s.cr2 := exec_keeps_get ht (r := .cr2) (List.mem_singleton.not.2 (by decide))
    obtain ⟨hrxne, -, -⟩ := exec_rdDr_flags ht
    refine ⟨(irq_eq_rxne_of_rxneie_alone hrxneie htxeie herrie).trans hfull, t, ht, ?_⟩
    rw [← hcr2] at hrxneie htxeie herrie
    exact (irq_eq_rxne_of_rxneie_alone hrxneie htxeie herrie).trans hrxne

/-! ## The snapshot -/

/-- Settles O52: a restore replaces the five fields a save takes, and the outputs are functions of them. -/
theorem snapshotRoundTrip : Obligations.SnapshotRoundTrip := by
  intro s p
  exact ⟨rfl, rfl, s.restore_trace p, s.restore_linkAnswers p, s.restore_rdata p, s.restore_requests p,
    (s.restore p).irq_eq, csLevel_eq_not_and p.cs⟩

end Sys2Proof.Machine
end
